-- ==== Sys2Proof/Word.lean ====
section
/-! DEFINITION. The value domain of the unit: u256 values, the request and response words as wide bit
vectors, and the test `fits256` (00_scope.md R6, R7; 30_encoding.md R40, R46). -/

namespace Sys2Proof

/-- A u256 as it travels on a 256-bit port, bit `i` of weight `2^i` (R7). -/
abbrev Word := BitVec 256

/-- The request word `{OP, A, B}` written as one vector (R40). -/
abbrev ReqWord := BitVec 516

/-- The response word `{ERR, R}` written as one vector (R46). -/
abbrev RspWord := BitVec 258

/-- `MAX`, the largest u256 (R6). -/
def maxU256 : Nat := 2 ^ 256 - 1

/-- The proposition `n <= MAX`, that is `n < 2^256` (R7). -/
abbrev fits256 (n : Nat) : Prop := n < 2 ^ 256

/-- A request as the host presents it: the values of `REQ_OP`, `REQ_A` and `REQ_B` at the moment
`REQ_VALID` marks it (R18, R40). Any opcode value can be presented, reserved ones too. -/
structure Request where
  op : BitVec 4
  a  : Word
  b  : Word
  deriving DecidableEq, Repr

end Sys2Proof
end

