-- ==== Sys2Proof/Syntax.lean ====
section
/-! DEFINITION. The eleven operations of the opcode map (30_encoding.md R41, R43), with the operands each
format uses. A field that a format does not use is no argument (R45). -/

namespace Sys2Proof

/-- One constructor per row of spec/opcode_table.json, in its order. -/
inductive Instr where
  /-- `WADMUL a, b` (R71), format F2. -/
  | wadmul (a b : Word)
  /-- `WADDIV a, b` (R81), format F2. -/
  | waddiv (a b : Word)
  /-- `RAYMUL a, b` (R72), format F2. -/
  | raymul (a b : Word)
  /-- `RAYDIV a, b` (R82), format F2. -/
  | raydiv (a b : Word)
  /-- `RAY2WAD x` (R90), format F1. -/
  | ray2wad (x : Word)
  /-- `WAD2RAY x` (R91), format F1. -/
  | wad2ray (x : Word)
  /-- `CONST.WAD` (R61), format F0. -/
  | constWad
  /-- `CONST.HALF_WAD` (R62), format F0. -/
  | constHalfWad
  /-- `CONST.RAY` (R63), format F0. -/
  | constRay
  /-- `CONST.HALF_RAY` (R64), format F0. -/
  | constHalfRay
  /-- `CONST.RATIO` (R65), format F0. -/
  | constRatio
  deriving DecidableEq, Repr

end Sys2Proof
end

