-- ==== Sys2Proof/WellFormed.lean ====
section
/-! DEFINITION. What makes a request legal (30_encoding.md R44, R48). Every 256-bit pattern is a legal operand
and a term of `Instr` holds whole u256 operands, so the one thing to check is the opcode of a request: it
must not be reserved. `Instr.wf` (Decode.lean) is this check on the opcode of an operation. -/

namespace Sys2Proof

/-- The five reserved opcode values (R44). -/
def reservedOps : List (BitVec 4) := [0x6#4, 0x7#4, 0xD#4, 0xE#4, 0xF#4]

/-- The opcode names an operation of the map of R43. -/
def legalOp (op : BitVec 4) : Bool := !reservedOps.contains op

/-- A request the host may issue (R44, R124 item 2). The operand fields are unchecked: there is no reserved
or trapping operand value (R48). -/
def Request.wf (r : Request) : Bool := legalOp r.op

end Sys2Proof
end

