-- ==== Sys2Proof/Decode.lean ====
section
/-! DEFINITION. Decoding a request, rejecting reserved opcodes by name; the encoder beside it; the request
and response words as single vectors; and the reading of an instruction as spec/opcode_table.json numbers
its bits (30_encoding.md R40 to R49). -/

namespace Sys2Proof

/-- Why a request is rejected by the decoder. -/
inductive Reject where
  /-- The opcode is one of the five reserved values (R44). -/
  | reservedOpcode (op : BitVec 4)
  deriving DecidableEq, Repr

/-- The opcode number of an operation, from the table of R43. -/
def Instr.opcode : Instr → BitVec 4
  | .wadmul _ _   => 0x0#4
  | .waddiv _ _   => 0x1#4
  | .raymul _ _   => 0x2#4
  | .raydiv _ _   => 0x3#4
  | .ray2wad _    => 0x4#4
  | .wad2ray _    => 0x5#4
  | .constWad     => 0x8#4
  | .constHalfWad => 0x9#4
  | .constRay     => 0xA#4
  | .constHalfRay => 0xB#4
  | .constRatio   => 0xC#4

/-- A well-formed instruction: its opcode is legal. Its operands are u256 by their type, so every term
is well formed (R48). -/
def Instr.wf (i : Instr) : Bool := legalOp i.opcode

/-- The three formats: which operand fields an operation uses (R41). -/
inductive Format where
  | f2 | f1 | f0
  deriving DecidableEq, Repr

/-- The format of an operation (R41). -/
def Instr.format : Instr → Format
  | .wadmul _ _ | .waddiv _ _ | .raymul _ _ | .raydiv _ _ => .f2
  | .ray2wad _ | .wad2ray _ => .f1
  | .constWad | .constHalfWad | .constRay | .constHalfRay | .constRatio => .f0

/-- The operation a request selects, by all four bits of `OP` (R43). Unused operand fields are dropped (R45). -/
def decode (r : Request) : Except Reject Instr :=
  match r.op.toNat with
  | 0  => .ok (.wadmul r.a r.b)
  | 1  => .ok (.waddiv r.a r.b)
  | 2  => .ok (.raymul r.a r.b)
  | 3  => .ok (.raydiv r.a r.b)
  | 4  => .ok (.ray2wad r.a)
  | 5  => .ok (.wad2ray r.a)
  | 8  => .ok .constWad
  | 9  => .ok .constHalfWad
  | 10 => .ok .constRay
  | 11 => .ok .constHalfRay
  | 12 => .ok .constRatio
  | _  => .error (.reservedOpcode r.op)

/-- The request of an operation. Fields the format does not use are assembled as zero (R51). -/
def encode (i : Instr) : Request :=
  match i with
  | .wadmul a b | .waddiv a b | .raymul a b | .raydiv a b => ⟨i.opcode, a, b⟩
  | .ray2wad x | .wad2ray x => ⟨i.opcode, x, 0⟩
  | .constWad | .constHalfWad | .constRay | .constHalfRay | .constRatio => ⟨i.opcode, 0, 0⟩

/-- `REQ = {OP, A, B}` (R40). -/
def Request.toWord (r : Request) : ReqWord := r.op ++ r.a ++ r.b

/-- The three fields of a request word: `REQ[515:512]`, `REQ[511:256]`, `REQ[255:0]` (R40). -/
def Request.ofWord (w : ReqWord) : Request :=
  ⟨w.extractLsb' 512 4, w.extractLsb' 256 256, w.extractLsb' 0 256⟩

/-- Decoding a whole 516-bit request word. -/
def decodeWord (w : ReqWord) : Except Reject Instr := decode (Request.ofWord w)

/-- The 516-bit request word of an operation. -/
def encodeWord (i : Instr) : ReqWord := (encode i).toWord

/-- Whether `OP` names an operation, read off the structure of its bits (R42): the class bit `OP[3]`, then in
the arithmetic class `OP[2]` and `OP[1]`, and in the constant class the ROM index `OP[2:0]`, at most 4. -/
def legalByStructure (op : BitVec 4) : Bool :=
  if op.getLsbD 3 then decide ((op.extractLsb' 0 3).toNat ≤ 4)
  else if op.getLsbD 2 then !op.getLsbD 1
  else true

/-- The operation of an arithmetic opcode, read off the structure of its bits (R42). -/
def arithByStructure (op : BitVec 4) (a b : Word) : Instr :=
  if op.getLsbD 2 then
    if op.getLsbD 0 then .wad2ray a else .ray2wad a
  else if op.getLsbD 1 then
    if op.getLsbD 0 then .raydiv a b else .raymul a b
  else
    if op.getLsbD 0 then .waddiv a b else .wadmul a b

/-- The constant read of a ROM word index (R42, R15). -/
def constByIndex (index : BitVec 3) : Option Instr :=
  match index.toNat with
  | 0 => some .constWad
  | 1 => some .constHalfWad
  | 2 => some .constRay
  | 3 => some .constHalfRay
  | 4 => some .constRatio
  | _ => none

/-- The request whose bits are `w` as spec/opcode_table.json numbers them. The table numbers a row over its
`OP` field (`match`, `mask`: `OP` is bits 3 to 0, the first word), so the operand fields count on from bit 4, first
`A` and then `B`. It also gives each row over the whole request word (`word_match`, `word_mask`), which is
how more than 512 bits are read: `OP` is then bits 515 to 512. Log entry 11. -/
def tableRequest (nbits w : Nat) : Request :=
  if nbits ≤ 512 then
    ⟨BitVec.ofNat 4 w, BitVec.ofNat 256 (w >>> 4), BitVec.ofNat 256 (w >>> 260)⟩
  else
    ⟨BitVec.ofNat 4 (w >>> 512), BitVec.ofNat 256 (w >>> 256), BitVec.ofNat 256 w⟩

/-- What the decoder gives for the bits of a row of the opcode table. -/
def decodeTableWord (nbits w : Nat) : Option Instr :=
  match decode (tableRequest nbits w) with
  | .ok i => some i
  | .error _ => none

end Sys2Proof
end

