-- ==== Sys2Proof/Config.lean ====
section
/-! DEFINITION. What a build of the unit fixes and what the spec leaves open: the two settings of the
model argument `ROUND_CARRY`, and the free values (00_scope.md R6; 92_eei_decisions.md D6, D7). -/

namespace Sys2Proof

/-- The two legal values of the model argument `ROUND_CARRY` (R6, D7): what the multiplier and the divider
do when the raw product fits in 256 bits and its sum with the rounding term does not. The setting of
a machine is the field `roundCarry` of its state, so every statement can hold for both. -/
inductive RoundCarry where
  /-- `ADD_OVF`, the default: the unit answers `Err(AdditionOverflow)`. -/
  | addOvf
  /-- `EXACT`: the unit goes on with the exact 257-bit sum. -/
  | exact
  deriving DecidableEq, Repr

namespace Config

/-- `ERR_R`: the bits on `RSP_R` beside the `n`-th drawn value, in a response that carries an error (R47, U3).
A free value: no body. Log entry 1. Safe. -/
opaque errR : Nat → Word

/-- The bits on `RSP_ERR` while `RSP_VALID` is 0 (R18, R19, U6). A free value: no body. Log entry 1. Safe. -/
opaque idleErr : Nat → BitVec 2

/-- The bits on `RSP_R` while `RSP_VALID` is 0 (R18, R19, U6). A free value: no body. Log entry 1. Safe. -/
opaque idleR : Nat → Word

end Config

end Sys2Proof
end

