-- ==== Sys2Proof/Machine/Rom.lean ====
section
/-! DEFINITION. The constant ROM: five words of 256 bits, an address space of its own with a 3-bit word index
(10_state.md R15, R16; 20_memory.md R30 to R34). -/

namespace Sys2Proof.Machine

/-- The five words of the constant ROM by their names (R15). -/
structure Rom where
  wad     : Word
  halfWad : Word
  ray     : Word
  halfRay : Word
  ratio   : Word
  deriving DecidableEq, Repr

/-- The contents of the ROM of every unit (R15): 10^18, 5 * 10^17, 10^27, 5 * 10^26 and 10^9. -/
def romContents : Rom where
  wad     := 1000000000000000000#256
  halfWad := 500000000000000000#256
  ray     := 1000000000000000000000000000#256
  halfRay := 500000000000000000000000000#256
  ratio   := 1000000000#256

/-- Reading the ROM space at a 3-bit word index: a whole word, or nothing at the indices 5, 6 and 7, which
do not exist (R16, R31). -/
def romRead (rom : Rom) (index : BitVec 3) : Option Word :=
  match index.toNat with
  | 0 => some rom.wad
  | 1 => some rom.halfWad
  | 2 => some rom.ray
  | 3 => some rom.halfRay
  | 4 => some rom.ratio
  | _ => none

end Sys2Proof.Machine
end

