-- ==== Sys2Proof/Machine/State.lean ====
section
/-! DEFINITION. The state of one WRU and the state after reset (10_state.md R10 to R19), the error kinds and the
response type (60_exceptions.md R100; 30_encoding.md R46, R47), and the reasons a step can stop. -/

namespace Sys2Proof.Machine

/-- The closed set of error kinds (R100). An error is a response, never a stop of the machine. -/
inductive MathError where
  /-- The exact raw product is at least 2^256 (R101). -/
  | multiplicationOverflow
  /-- The divisor is zero (R102). -/
  | divisionByZero
  /-- The sum with the rounding term is at least 2^256 (R103). -/
  | additionOverflow
  deriving DecidableEq, Repr

/-- A response as the host may use it: a u256, or one error kind with no value beside it (R46, R47). -/
inductive Response where
  | ok  (v : Word)
  | err (k : MathError)
  deriving DecidableEq, Repr

/-- Why the machine stops with a fault. -/
inductive Fault where
  /-- The ROM space was read at an index where no word exists (R16, R31). Raised by `State.romReadAt`. No
  instruction reaches it, because an opcode names an index of at most 4. Safe. -/
  | romIndexAbsent (index : BitVec 3)
  deriving DecidableEq, Repr

/-- Why a step is refused. -/
inductive Refusal where
  /-- Raised by `exec` for an instruction that has no meaning yet. Safe. -/
  | notModelled (mnemonic : String)
  /-- Raised by `step` for a request with a reserved opcode: the spec defines no response (R44, U4). Safe. -/
  | reservedOpcode (op : BitVec 4)
  /-- Raised by `step` when `RST` is asserted while a response is owed: the spec gives a model no move (R121). Safe. -/
  | resetWhileOwed
  deriving DecidableEq, Repr

/-- The state of one WRU: its ports, its ROM, the requests in flight and the setting of its build. The unit has
no register, no program counter, no flag and no control register (R10 to R14). -/
structure State where
  /-- Input `RST` (R18, R120): the host has asserted reset. The next step takes it. -/
  rst        : Bool
  /-- The requests presented and not yet answered, oldest first (R17, R18). Its head holds the values that
  `REQ_OP`, `REQ_A` and `REQ_B` had when the host presented it. -/
  requests   : List Request
  /-- Output `RSP_VALID` (R18). -/
  rspValid   : Bool
  /-- Output `RSP_ERR` (R18, R46): means nothing while `rspValid` is false. -/
  rspErr     : BitVec 2
  /-- Output `RSP_R` (R18, R46): defined only when `rspValid` is true and `rspErr` is 0. -/
  rspR       : Word
  /-- The constant ROM (R15). Nothing writes it. -/
  rom        : Rom
  /-- The model argument `ROUND_CARRY` (R6): a property of the build. Nothing writes it. -/
  roundCarry : RoundCarry
  /-- The model's own counter of free values drawn so far, not a part of the hardware. -/
  draws      : Nat
  deriving DecidableEq, Repr

/-- The unit right after reset (R19, R120): nothing owed, `RSP_VALID` 0, the ROM as built, `ROUND_CARRY` at the
spec's default. DESIGN CHOICE (log entries 1, 3, 4, 5): the inputs are not asserted, the idle values of `RSP_ERR` and
`RSP_R` are zero, and no free value has been drawn. -/
def State.reset : State where
  rst        := false
  requests   := []
  rspValid   := false
  rspErr     := 0
  rspR       := 0
  rom        := romContents
  roundCarry := .addOvf
  draws      := 0

end Sys2Proof.Machine
end

