-- ==== Sys2Proof/Machine/Ops.lean ====
section
/-! DEFINITION. The named operations over the state: presenting and taking a request, giving a response,
delivering an error (the one shared operation, 60_exceptions.md R106), idling, reset, and reading the ROM and the
response port. -/

namespace Sys2Proof.Machine

/-! ### Requests (R17, R18) -/

/-- The host presents a request: the unit accepts every one, behind those already in flight (R18). -/
def State.present (s : State) (r : Request) : State :=
  { s with requests := s.requests ++ [r] }

/-- `REQ_VALID` as the unit's next transaction sees it: some request waits to be answered. -/
def State.reqValid (s : State) : Bool := !s.requests.isEmpty

/-- The oldest request is taken out, to be answered: one unit answers in request order (R18). -/
def State.takeRequest (s : State) : State :=
  { s with requests := s.requests.tail }

/-! ### Responses (R46, R47, R106) -/

/-- The `ERR` code of an error kind (R46, R100). -/
def MathError.code : MathError → BitVec 2
  | .multiplicationOverflow => 1#2
  | .divisionByZero         => 2#2
  | .additionOverflow       => 3#2

/-- The error kind of an `ERR` field, none for 0 (R46). -/
def errorOfCode (err : BitVec 2) : Option MathError :=
  match err.toNat with
  | 1 => some .multiplicationOverflow
  | 2 => some .divisionByZero
  | 3 => some .additionOverflow
  | _ => none

/-- A successful response: `ERR` is 0 and `R` holds the result (R8, R46). -/
def State.returnOk (s : State) (v : Word) : State :=
  { s with rspValid := true, rspErr := 0, rspR := v }

/-- Delivering an error (R8, R47, R106): `ERR` holds the code of the kind, `R` a free value, and nothing else
is recorded. Control goes nowhere and the machine goes on. -/
def State.raise (s : State) (k : MathError) : State :=
  { s with rspValid := true, rspErr := k.code, rspR := Config.errR s.draws, draws := s.draws + 1 }

/-- The end of a transaction: its response is put on the response port (R8). -/
def State.respond (s : State) : Response → State
  | .ok v  => s.returnOk v
  | .err k => s.raise k

/-- What the host reads from the response port: nothing while `RSP_VALID` is 0, and `RSP_R` only when `RSP_ERR`
is 0 (R47, R124 item 3). -/
def State.response (s : State) : Option Response :=
  if s.rspValid then
    match errorOfCode s.rspErr with
    | none   => some (.ok s.rspR)
    | some k => some (.err k)
  else none

/-- `RSP = {ERR, R}` (R46). -/
def State.rspWord (s : State) : RspWord := s.rspErr ++ s.rspR

/-! ### No transaction: idle and reset (R19, R120) -/

/-- The response port with no response on it: `RSP_VALID` is 0 and the other two outputs have no defined
value, so they are free values (R18, R19, U6). -/
def State.idle (s : State) : State :=
  { s with
    rspValid := false
    rspErr := Config.idleErr s.draws
    rspR := Config.idleR s.draws
    draws := s.draws + 1 }

/-- `RST` taken between transactions: no architectural effect, nothing owed afterwards, `RSP_VALID` 0 (R120). -/
def State.applyReset (s : State) : State :=
  { s.idle with rst := false, requests := [] }

/-! ### The ROM (R15, R16) -/

/-- A read of the ROM space by its 3-bit index, for a continuation that takes the word (R31). DESIGN CHOICE (log
entry 6): an absent index faults. -/
def State.romReadAt (s : State) (index : BitVec 3)
    (use : Word → Host.Outcome State Fault Refusal) : Host.Outcome State Fault Refusal :=
  match romRead s.rom index with
  | some v => use v
  | none   => .fault (.romIndexAbsent index)

end Sys2Proof.Machine
end

