-- ==== Sys2Proof/Machine/Operands.lean ====
section
/-! DEFINITION. The operands of the formulas as natural numbers. The two request operands are taken whole and
unsigned (30_encoding.md R48); the base unit, the half and the half ratio come from the ROM, the same words a
`CONST` read returns (10_state.md R16). -/

namespace Sys2Proof.Machine

/-- The two fixed-point formats (00_scope.md R9, "base unit"). -/
inductive Scale where
  | wad | ray
  deriving DecidableEq, Repr

/-- The base unit `d`: ROM word 0 or 2 (R71, R72, R81, R82). -/
def State.unit (s : State) : Scale → Nat
  | .wad => s.rom.wad.toNat
  | .ray => s.rom.ray.toNat

/-- The rounding term `half` of the multiplier: ROM word 1 or 3 (R71, R72). -/
def State.half (s : State) : Scale → Nat
  | .wad => s.rom.halfWad.toNat
  | .ray => s.rom.halfRay.toNat

/-- `WAD_RAY_RATIO`: ROM word 4 (R90, R91). -/
def State.ratio (s : State) : Nat := s.rom.ratio.toNat

/-- The rounding term of `RAY2WAD`, used inside the unit and not in the ROM (R16, R90). -/
def State.halfRatio (s : State) : Nat := s.ratio / 2

/-- The rounding term of the divider, the floor of half the divisor (R80 step 4, D8). -/
def halfDivisor (b : Word) : Nat := b.toNat / 2

end Sys2Proof.Machine
end

