-- ==== Sys2Proof/Machine/Flags.lean ====
section
/-! DEFINITION. The unit has no flags (10_state.md R13). What stands in their place is the overflow and division by
zero detector (60_exceptions.md R101 to R105): each test once, and the tail that the multiplier and the divider
share, where `ROUND_CARRY` decides. -/

namespace Sys2Proof.Machine

/-- The product test, on the exact raw product alone (R101): go on with a product that fits. -/
def checkProduct (p : Nat) (cont : Nat → Response) : Response :=
  if fits256 p then cont p else .err .multiplicationOverflow

/-- The divisor test, made before anything else (R102): go on with a divisor that is not zero. -/
def checkDivisor (b : Word) (cont : Response) : Response :=
  if b = 0 then .err .divisionByZero else cont

/-- The sum test, whatever the setting of `ROUND_CARRY` (R103, R95): go on with a sum that fits. -/
def checkSum (sum : Nat) (cont : Nat → Response) : Response :=
  if fits256 sum then cont sum else .err .additionOverflow

/-- The sum test of the multiplier and the divider (R70 step 4, R80 step 6): under `EXACT` the exact sum of up to 257
bits goes on. -/
def checkRoundingSum (carry : RoundCarry) (sum : Nat) (cont : Nat → Response) : Response :=
  match carry with
  | .addOvf => checkSum sum cont
  | .exact  => cont sum

/-- A success with the natural number `n` as its result; every rule that uses it shows that `n` fits (R8, R22). -/
def okNat (n : Nat) : Response := .ok (BitVec.ofNat 256 n)

end Sys2Proof.Machine
end

