-- ==== Sys2Proof/Machine/Constants.lean ====
section
/-! DEFINITION. The constant ROM reads (40_constants.md R60 to R65). -/

namespace Sys2Proof.Machine

/-- Every `CONST` read: the word at the index the opcode names, returned unchanged (R60). -/
def constRead (index : BitVec 3) (s : State) : Host.Outcome State Fault Refusal :=
  s.romReadAt index fun v => .next (s.respond (.ok v))

/-- `CONST.WAD`: ROM word 0 (R61). -/
def execConstWad (s : State) : Host.Outcome State Fault Refusal := constRead 0#3 s

/-- `CONST.HALF_WAD`: ROM word 1 (R62). -/
def execConstHalfWad (s : State) : Host.Outcome State Fault Refusal := constRead 1#3 s

/-- `CONST.RAY`: ROM word 2 (R63). -/
def execConstRay (s : State) : Host.Outcome State Fault Refusal := constRead 2#3 s

/-- `CONST.HALF_RAY`: ROM word 3 (R64). -/
def execConstHalfRay (s : State) : Host.Outcome State Fault Refusal := constRead 3#3 s

/-- `CONST.RATIO`: ROM word 4 (R65). -/
def execConstRatio (s : State) : Host.Outcome State Fault Refusal := constRead 4#3 s

end Sys2Proof.Machine
end

