-- ==== Sys2Proof/Machine/Convert.lean ====
section
/-! DEFINITION. The format converters (43_convert.md R90, R91). -/

namespace Sys2Proof.Machine

/-- The downscale by `q` with its rounding term `h` (R90). `ROUND_CARRY` plays no part (R95). The exact place of
the boundary is the source author's inference (U1, log entry 7). -/
def downscale (x : Word) (q h : Nat) : Response :=
  checkSum (x.toNat + h) fun sum => okNat (sum / q)

/-- The exact upscale by `q` (R91). -/
def upscale (x : Word) (q : Nat) : Response :=
  checkProduct (x.toNat * q) okNat

/-- `RAY2WAD x` (R90). -/
def execRay2wad (x : Word) (s : State) : Host.Outcome State Fault Refusal :=
  .next (s.respond (downscale x s.ratio s.halfRatio))

/-- `WAD2RAY x` (R91). -/
def execWad2ray (x : Word) (s : State) : Host.Outcome State Fault Refusal :=
  .next (s.respond (upscale x s.ratio))

end Sys2Proof.Machine
end

