-- ==== Sys2Proof/Machine/Divide.lean ====
section
/-! DEFINITION. The fixed-point divider with round half up (42_divide.md R80 to R82). -/

namespace Sys2Proof.Machine

/-- `divround(a, b, d)` (R80): the divisor test, the product test, then the rounding sum, then the quotient by `b`. -/
def divround (carry : RoundCarry) (a b : Word) (d : Nat) : Response :=
  checkDivisor b <|
    checkProduct (a.toNat * d) fun p =>
      checkRoundingSum carry (p + halfDivisor b) fun sum => okNat (sum / b.toNat)

/-- `WADDIV a, b` (R81). -/
def execWaddiv (a b : Word) (s : State) : Host.Outcome State Fault Refusal :=
  .next (s.respond (divround s.roundCarry a b (s.unit .wad)))

/-- `RAYDIV a, b` (R82). -/
def execRaydiv (a b : Word) (s : State) : Host.Outcome State Fault Refusal :=
  .next (s.respond (divround s.roundCarry a b (s.unit .ray)))

end Sys2Proof.Machine
end

