-- ==== Sys2Proof/Machine/Multiply.lean ====
section
/-! DEFINITION. The fixed-point multiplier with round half up (41_multiply.md R70 to R72). -/

namespace Sys2Proof.Machine

/-- `mulround(a, b, d, half)` (R70): the product test, then the rounding sum, then the quotient by `d`. -/
def mulround (carry : RoundCarry) (a b : Word) (d half : Nat) : Response :=
  checkProduct (a.toNat * b.toNat) fun p =>
    checkRoundingSum carry (p + half) fun sum => okNat (sum / d)

/-- `WADMUL a, b` (R71). -/
def execWadmul (a b : Word) (s : State) : Host.Outcome State Fault Refusal :=
  .next (s.respond (mulround s.roundCarry a b (s.unit .wad) (s.half .wad)))

/-- `RAYMUL a, b` (R72). -/
def execRaymul (a b : Word) (s : State) : Host.Outcome State Fault Refusal :=
  .next (s.respond (mulround s.roundCarry a b (s.unit .ray) (s.half .ray)))

end Sys2Proof.Machine
end

