-- ==== Sys2Proof/Machine/Dispatch.lean ====
section
/-! DEFINITION. One arm per operation of the opcode map (30_encoding.md R43), each one call of its meaning. -/

namespace Sys2Proof.Machine

def exec (i : Instr) (s : State) : Host.Outcome State Fault Refusal :=
  match i with
  | .wadmul a b => Sys2Proof.Machine.execWadmul a b s
  | .waddiv a b => Sys2Proof.Machine.execWaddiv a b s
  | .raymul a b => Sys2Proof.Machine.execRaymul a b s
  | .raydiv a b => Sys2Proof.Machine.execRaydiv a b s
  | .ray2wad x => Sys2Proof.Machine.execRay2wad x s
  | .wad2ray x => Sys2Proof.Machine.execWad2ray x s
  | .constWad => Sys2Proof.Machine.execConstWad s
  | .constHalfWad => Sys2Proof.Machine.execConstHalfWad s
  | .constRay => Sys2Proof.Machine.execConstRay s
  | .constHalfRay => Sys2Proof.Machine.execConstHalfRay s
  | .constRatio => Sys2Proof.Machine.execConstRatio s

end Sys2Proof.Machine
end

