-- ==== Sys2Proof/Machine/Step.lean ====
section
/-! DEFINITION. One step of the unit. A step is one transaction, from request to response, taken whole
(10_state.md R17), or a step with no transaction: reset, or idle. -/

namespace Sys2Proof.Machine

/-- A transaction on a request that has been taken: decode it and run it (R8). A reserved opcode is refused: the
spec defines no response to it (R44). -/
def serve (r : Request) (s : State) : Host.Outcome State Fault Refusal :=
  match decode r with
  | .ok i => exec i s
  | .error (.reservedOpcode op) => .refused (.reservedOpcode op)

/-- One step. `RST` comes first: with a response owed the spec gives no move (R121; log entry 15 for what
counts as owed), with none owed it is taken (R120).
Then the oldest request is taken and served (R17, R18), or, with none in flight, the port idles (R19). -/
def step (s : State) : Host.Outcome State Fault Refusal :=
  match s.rst, s.requests with
  | true,  _ :: _ => .refused .resetWhileOwed
  | true,  []     => .next s.applyReset
  | false, []     => .next s.idle
  | false, r :: _ => serve r s.takeRequest

/-- `s` with the instruction whose bits are `w`, as the opcode table numbers them, presented as the oldest
request, so that the very next step runs it. `RST` is not asserted, which the taking of a request needs. It stands for
the host's presentation of a request (R18). Log entry 12. -/
def State.withFetchWord (s : State) (nbits w : Nat) : State :=
  { s with rst := false, requests := tableRequest nbits w :: s.requests }

end Sys2Proof.Machine
end

