-- ==== Sys2Proof/Machine/Script.lean ====
section
/-! DEFINITION. The host's notation for requests and transaction scripts (30_encoding.md R51, R52). It adds nothing to
the unit: a line's response is the one the step gives to its request. -/

namespace Sys2Proof.Machine

/-- A numeral of the operand syntax (R51). Decimal and hexadecimal spell the same `lit`. -/
inductive Numeral where
  | lit (n : Nat)
  /-- An exact power, such as `10^18`. -/
  | pow (base exp : Nat)
  /-- A multiple of an exact power, such as `25*10^17`. -/
  | scaled (k base exp : Nat)
  /-- One less than an exact power, such as `2^256-1`. -/
  | powPred (base exp : Nat)
  | max | wad | halfWad | ray | halfRay | wadRayRatio
  deriving DecidableEq, Repr

/-- The number a numeral stands for (R51). -/
def Numeral.value : Numeral → Nat
  | .lit n        => n
  | .pow b e      => b ^ e
  | .scaled k b e => k * b ^ e
  | .powPred b e  => b ^ e - 1
  | .max          => maxU256
  | .wad          => romContents.wad.toNat
  | .halfWad      => romContents.halfWad.toNat
  | .ray          => romContents.ray.toNat
  | .halfRay      => romContents.halfRay.toNat
  | .wadRayRatio  => romContents.ratio.toNat

/-- A numeral is a u256 numeral (R51). -/
def Numeral.wf (n : Numeral) : Bool := decide (fits256 n.value)

/-- The u256 of a well-formed numeral. -/
def Numeral.word (n : Numeral) : Option Word :=
  if n.wf then some (BitVec.ofNat 256 n.value) else none

/-- An operand of a script line: a numeral, or a name bound by an earlier line (R52). -/
inductive Operand where
  | num   (n : Numeral)
  | bound (name : String)
  deriving DecidableEq, Repr

/-- A script line `<name> <- MNEMONIC operands` (R52). -/
structure ScriptLine where
  name     : String
  mnemonic : String
  operands : List Operand
  deriving DecidableEq, Repr

/-- The operation a mnemonic and its operands name (R43, R51), none for an unknown mnemonic or a wrong number of
operands. There are no pseudo-instructions. -/
def assemble (mnemonic : String) (operands : List Word) : Option Instr :=
  match operands with
  | [a, b] =>
    if mnemonic = "WADMUL" then some (.wadmul a b)
    else if mnemonic = "WADDIV" then some (.waddiv a b)
    else if mnemonic = "RAYMUL" then some (.raymul a b)
    else if mnemonic = "RAYDIV" then some (.raydiv a b)
    else none
  | [x] =>
    if mnemonic = "RAY2WAD" then some (.ray2wad x)
    else if mnemonic = "WAD2RAY" then some (.wad2ray x)
    else none
  | [] =>
    if mnemonic = "CONST.WAD" then some .constWad
    else if mnemonic = "CONST.HALF_WAD" then some .constHalfWad
    else if mnemonic = "CONST.RAY" then some .constRay
    else if mnemonic = "CONST.HALF_RAY" then some .constHalfRay
    else if mnemonic = "CONST.RATIO" then some .constRatio
    else none
  | _ => none

/-- The mnemonic of an operation (R43). -/
def mnemonicOf : Instr → String
  | .wadmul _ _   => "WADMUL"
  | .waddiv _ _   => "WADDIV"
  | .raymul _ _   => "RAYMUL"
  | .raydiv _ _   => "RAYDIV"
  | .ray2wad _    => "RAY2WAD"
  | .wad2ray _    => "WAD2RAY"
  | .constWad     => "CONST.WAD"
  | .constHalfWad => "CONST.HALF_WAD"
  | .constRay     => "CONST.RAY"
  | .constHalfRay => "CONST.HALF_RAY"
  | .constRatio   => "CONST.RATIO"

/-- The operands of an operation in the order of the syntax (R51). -/
def operandsOf : Instr → List Word
  | .wadmul a b | .waddiv a b | .raymul a b | .raydiv a b => [a, b]
  | .ray2wad x | .wad2ray x => [x]
  | .constWad | .constHalfWad | .constRay | .constHalfRay | .constRatio => []

/-- The names bound so far, the newest first. -/
abbrev Bindings := List (String × Word)

/-- The u256 an operand stands for. A name may be used only after the line that binds it (R52). -/
def Operand.word (env : Bindings) : Operand → Option Word
  | .num n   => n.word
  | .bound x => env.lookup x

/-- The operation of a script line, none where the line is ill formed. -/
def ScriptLine.instr (env : Bindings) (line : ScriptLine) : Option Instr := do
  assemble line.mnemonic (← line.operands.mapM (Operand.word env))

/-- How a script ends (R52). -/
inductive ScriptOutcome where
  /-- Every line answered `Ok`. -/
  | done (env : Bindings) (s : State)
  /-- `Err(k)` at line `t<n>`: no later line is issued. -/
  | stopped (n : Nat) (k : MathError) (env : Bindings) (s : State)
  /-- Line `t<n>` is no legal line of the notation: it is not issued. -/
  | illFormed (n : Nat) (env : Bindings) (s : State)
  /-- The unit gives no response to line `t<n>`: a step stopped, or answered nothing. -/
  | noResponse (n : Nat)
  deriving DecidableEq, Repr

/-- Issuing one request and waiting for its response, which comes after those of the requests already in
flight (R18, R52). -/
def issue (s : State) (i : Instr) : Host.Outcome State Fault Refusal :=
  Host.Core.run core (s.requests.length + 1) (s.present (encode i))

/-- Performing the lines from line `t<n>` on, one after another (R52). -/
def runScript (n : Nat) (env : Bindings) (s : State) : List ScriptLine → ScriptOutcome
  | [] => .done env s
  | line :: rest =>
    match line.instr env with
    | none => .illFormed n env s
    | some i =>
      match issue s i with
      | .next t =>
        match t.response with
        | some (.ok v)  => runScript (n + 1) ((line.name, v) :: env) t rest
        | some (.err k) => .stopped n k env t
        | none          => .noResponse n
      | _ => .noResponse n

end Sys2Proof.Machine
end

