-- ==== Sys2Proof/Safety.lean ====
section
/-! DEFINITION. What claims about the unit are stated in: an intact ROM, a host that keeps to its obligations
(70_reset_and_hazards.md R124), and what it is to answer a request. -/

namespace Sys2Proof.Machine

/-- The ROM holds the words of R15. -/
def RomIntact (s : State) : Prop := s.rom = romContents

/-- The host keeps to items 2 and 6 of R124: no reserved opcode, and no `RST` while a response is
owed, for which every request in the list counts (log entry 15). -/
abbrev HostObeys (s : State) : Prop :=
  (∀ r ∈ s.requests, r.wf = true) ∧ (s.rst = true → s.requests = [])

/-- Nothing a transaction may not change differs between `s` and `t`: the ROM, the setting of the build, the requests
still in flight and the `RST` input (R10, R14, R15). -/
def Unchanged (s t : State) : Prop :=
  t.rom = s.rom ∧ t.roundCarry = s.roundCarry ∧ t.requests = s.requests ∧ t.rst = s.rst

/-- Running `i` in `s` completes with the response `resp` on the response port, and nothing but that port and the
count of free values differs. -/
def Answers (i : Instr) (s : State) (resp : Response) : Prop :=
  ∃ t, exec i s = .next t ∧ t.response = some resp ∧ Unchanged s t

/-- A state from which the next step is one the spec gives: it neither faults nor is refused. -/
def SafeStep (s : State) : Prop := ∃ t, step s = .next t

end Sys2Proof.Machine
end

