-- ==== Sys2Proof/Certificates/Slice0/Obligations.lean ====
section
/-! DEFINITION. The statements for the provers, from the numbered rules of spec/. `Answers i s resp` says that running
`i` in `s` completes with the response `resp` on the port and changes nothing else (Safety.lean), so a result
statement is at once a completion statement and a frame. `RomIntact s` is the invariant that the ROM holds the words of
R15, itself a statement below. -/

open Sys2Proof Sys2Proof.Machine

/-! ### Encoding -/

/-- Every operation is decoded back from its 516-bit request word (R40, R43, R51). -/
def Obligations.EncodedInstructionsDecodeBack : Prop :=
  ∀ i : Instr, decodeWord (encodeWord i) = .ok i

/-- A request word is the number `OP * 2^512 + A * 2^256 + B`, and request words and requests stand for each other one
to one (R40). -/
def Obligations.RequestWordHasThreeFields : Prop :=
  (∀ r : Request, r.toWord.toNat = r.op.toNat * 2 ^ 512 + r.a.toNat * 2 ^ 256 + r.b.toNat ∧
    Request.ofWord r.toWord = r) ∧
  ∀ w : ReqWord, (Request.ofWord w).toWord = w

/-- The complete opcode map, sixteen values of `OP` (R43, R44). -/
def Obligations.OpcodeMapSelectsOperation : Prop :=
  ∀ a b : Word,
    decode ⟨0x0#4, a, b⟩ = .ok (.wadmul a b) ∧
    decode ⟨0x1#4, a, b⟩ = .ok (.waddiv a b) ∧
    decode ⟨0x2#4, a, b⟩ = .ok (.raymul a b) ∧
    decode ⟨0x3#4, a, b⟩ = .ok (.raydiv a b) ∧
    decode ⟨0x4#4, a, b⟩ = .ok (.ray2wad a) ∧
    decode ⟨0x5#4, a, b⟩ = .ok (.wad2ray a) ∧
    decode ⟨0x6#4, a, b⟩ = .error (.reservedOpcode 0x6#4) ∧
    decode ⟨0x7#4, a, b⟩ = .error (.reservedOpcode 0x7#4) ∧
    decode ⟨0x8#4, a, b⟩ = .ok .constWad ∧
    decode ⟨0x9#4, a, b⟩ = .ok .constHalfWad ∧
    decode ⟨0xA#4, a, b⟩ = .ok .constRay ∧
    decode ⟨0xB#4, a, b⟩ = .ok .constHalfRay ∧
    decode ⟨0xC#4, a, b⟩ = .ok .constRatio ∧
    decode ⟨0xD#4, a, b⟩ = .error (.reservedOpcode 0xD#4) ∧
    decode ⟨0xE#4, a, b⟩ = .error (.reservedOpcode 0xE#4) ∧
    decode ⟨0xF#4, a, b⟩ = .error (.reservedOpcode 0xF#4)

/-- Reading `OP` by its class, format and function bits gives the same operations as the table (R42). -/
def Obligations.OpcodeBitsAgreeWithTable : Prop :=
  ∀ (op : BitVec 4) (a b : Word),
    decode ⟨op, a, b⟩ =
      if legalByStructure op = true then
        if op.getLsbD 3 = true then
          match constByIndex (op.extractLsb' 0 3) with
          | some i => .ok i
          | none   => .error (.reservedOpcode op)
        else .ok (arithByStructure op a b)
      else .error (.reservedOpcode op)

/-- Request words of 95_test_vectors.md section 4 decode to the operations they are listed for. -/
def Obligations.ListedRequestWordsDecode : Prop :=
  decodeWord 0x000000000000000000000000000000000000000000000000022B1C8C1227A000000000000000000000000000000000000000000000000000006F05B59D3B20000#516
    = .ok (.wadmul 2500000000000000000#256 500000000000000000#256) ∧
  decodeWord 0x100000000000000000000000000000000000000000000000000000000000000010000000000000000000000000000000000000000000000000000000000000000#516
    = .ok (.waddiv 1#256 0#256) ∧
  decodeWord 0x4FFFFFFFFFFFFFFFFFFFFFFFFFFFFFFFFFFFFFFFFFFFFFFFFFFFFFFFFFFFFFFFF0000000000000000000000000000000000000000000000000000000000000000#516
    = .ok (.ray2wad (BitVec.allOnes 256)) ∧
  decodeWord 0x40000000000000000000000000000000000000000033B2E3C9FD0803CE8000000FFFFFFFFFFFFFFFFFFFFFFFFFFFFFFFFFFFFFFFFFFFFFFFFFFFFFFFFFFFFFFFF#516
    = .ok (.ray2wad 1000000000000000000000000000#256) ∧
  decodeWord 0x900000000000000000000000000000000000000000000000000000000000000000000000000000000000000000000000000000000000000000000000000000000#516
    = .ok .constHalfWad ∧
  decodeWord 0xCFFFFFFFFFFFFFFFFFFFFFFFFFFFFFFFFFFFFFFFFFFFFFFFFFFFFFFFFFFFFFFFFFFFFFFFFFFFFFFFFFFFFFFFFFFFFFFFFFFFFFFFFFFFFFFFFFFFFFFFFFFFFFFFF#516
    = .ok .constRatio

/-- A request that carries a reserved opcode is refused: no response is assigned (R44). -/
def Obligations.ReservedOpcodesAreRefused : Prop :=
  ∀ (s : State) (r : Request) (rest : List Request),
    s.rst = false → s.requests = r :: rest →
    (r.op = 0x6#4 ∨ r.op = 0x7#4 ∨ r.op = 0xD#4 ∨ r.op = 0xE#4 ∨ r.op = 0xF#4) →
    step s = .refused (.reservedOpcode r.op)

/-- The outcome of a step does not depend on the operand fields that the format of the oldest request does not
use (R45): `B` of the converters, `A` and `B` of the constant reads. -/
def Obligations.UnusedFieldsAreIgnored : Prop :=
  (∀ (op : BitVec 4) (s : State) (rest : List Request) (x b b' : Word), op = 0x4#4 ∨ op = 0x5#4 →
    step { s with requests := ⟨op, x, b⟩ :: rest } = step { s with requests := ⟨op, x, b'⟩ :: rest }) ∧
  (∀ (op : BitVec 4) (s : State) (rest : List Request) (a a' b b' : Word),
    op = 0x8#4 ∨ op = 0x9#4 ∨ op = 0xA#4 ∨ op = 0xB#4 ∨ op = 0xC#4 →
    step { s with requests := ⟨op, a, b⟩ :: rest } = step { s with requests := ⟨op, a', b'⟩ :: rest })

/-- The syntax of R51: an operation is what its own mnemonic and operands assemble to, with `a` in field `A` and `b` in field
`B`, and zero in the fields its format does not use. -/
def Obligations.SyntaxAssemblesToOperation : Prop :=
  (∀ i : Instr, assemble (mnemonicOf i) (operandsOf i) = some i) ∧
  (∀ a b : Word, ∀ i ∈ [Instr.wadmul a b, .waddiv a b, .raymul a b, .raydiv a b],
    (encode i).a = a ∧ (encode i).b = b) ∧
  (∀ x : Word, ∀ i ∈ [Instr.ray2wad x, .wad2ray x], (encode i).a = x ∧ (encode i).b = 0) ∧
  (∀ i ∈ [Instr.constWad, .constHalfWad, .constRay, .constHalfRay, .constRatio],
    (encode i).a = 0 ∧ (encode i).b = 0)

/-! ### The step -/

/-- With `RST` not asserted, a step takes the oldest request out and runs the operation it decodes to (R8, R17, R18). -/
def Obligations.StepRunsDecodedInstruction : Prop :=
  ∀ (s : State) (r : Request) (rest : List Request) (i : Instr),
    s.rst = false → s.requests = r :: rest → decode r = .ok i →
    step s = exec i { s with requests := rest }

/-- A row's bits placed by `withFetchWord` are run by the very next step. Model's interface, log entries 11 and 12. -/
def Obligations.PlacedInstructionRunsNext : Prop :=
  ∀ (s : State) (nbits w : Nat) (i : Instr),
    decodeTableWord nbits w = some i →
    step (s.withFetchWord nbits w) = exec i { s with rst := false }

/-- With nothing to answer the unit goes on, presents no response and changes nothing a request can see. R18 says that
`RSP_VALID` is 1 when a response is presented, and R19 that it is 0 after reset until the first answer. That this step
brings it to 0 from a state whose port still holds a response is the model's choice (DESIGN CHOICE, log entry 14),
which no rule of the spec states; that such a step happens at all is the model's step (log entry 10). -/
def Obligations.StepWithoutRequestIdles : Prop :=
  ∀ s : State, s.rst = false → s.requests = [] →
    ∃ t, step s = .next t ∧ t.rspValid = false ∧ t.response = none ∧ Unchanged s t

/-- Reset between transactions: afterwards no response is owed, `RSP_VALID` is 0, the ROM and the setting of the build are
what they were, and every request is answered as before it (R120). -/
def Obligations.ResetHasNoArchitecturalEffect : Prop :=
  ∀ s : State, s.rst = true → s.requests = [] →
    ∃ t, step s = .next t ∧ t.requests = [] ∧ t.rspValid = false ∧ t.rom = s.rom ∧ t.roundCarry = s.roundCarry ∧
      ∀ (i : Instr) (resp : Response), Answers i t resp ↔ Answers i s resp

/-- `RST` asserted with any request in the list has no move. R121 gives no move to `RST` while a response is owed; that
every request in the list counts as owed, one just presented too, is the model's reading (DEDUCED, log entry 15). -/
def Obligations.ResetWhileOwedHasNoMove : Prop :=
  ∀ s : State, s.rst = true → s.requests ≠ [] → step s = .refused .resetWhileOwed

/-- What reset leaves, as the spec states it (R15, R19): nothing in flight, `RSP_VALID` 0, the five words of the ROM. -/
def Obligations.ResetStateHoldsSpecifiedValues : Prop :=
  State.reset.requests = [] ∧ State.reset.rspValid = false ∧
  State.reset.rom.wad.toNat = 10 ^ 18 ∧ State.reset.rom.halfWad.toNat = 5 * 10 ^ 17 ∧
  State.reset.rom.ray.toNat = 10 ^ 27 ∧ State.reset.rom.halfRay.toNat = 5 * 10 ^ 26 ∧
  State.reset.rom.ratio.toNat = 10 ^ 9

/-- The invariant holds at reset: the ROM is intact (R15, R19) and the host is within its obligations. No request is in
flight after reset by R19; that the request port presents none either, and that `RST` is 0, are the model's choices
(log entries 3 and 4). -/
def Obligations.ResetStateMeetsInvariant : Prop :=
  RomIntact State.reset ∧ HostObeys State.reset

/-- Every step keeps the ROM intact (R15: no request writes it), the setting of the build, and a host that keeps its
obligations (R124) within them. What counts as a response owed there is the model's reading (log entry 15). -/
def Obligations.StepKeepsInvariant : Prop :=
  ∀ s t : State, RomIntact s → HostObeys s → step s = .next t →
    RomIntact t ∧ HostObeys t ∧ t.roundCarry = s.roundCarry

/-- A step never faults: whatever the state, no operation reads an absent word of the ROM space (R16, R31). -/
def Obligations.StepNeverFaults : Prop :=
  ∀ (s : State) (f : Fault), step s ≠ .fault f

/-- A step stops exactly where the host breaks one of its two obligations about the oldest request and `RST`. The clause
on the oldest request is R44 and R125. The clause on `RST` is the model's: R121 and R124 speak of a response owed, and
that every request in the list counts as owed, one just presented too, is its reading (DEDUCED, log entry 15). -/
def Obligations.StepStopsOnlyWhereHostDisobeys : Prop :=
  ∀ s : State, SafeStep s ↔
    (s.rst = true → s.requests = []) ∧ (∀ r rest, s.requests = r :: rest → r.wf = true)

/-- Every request with a legal opcode is answered, by the very step that takes it (R125, R17). -/
def Obligations.LegalRequestIsAnswered : Prop :=
  ∀ (s : State) (r : Request) (rest : List Request),
    s.rst = false → s.requests = r :: rest →
    (r.op ≠ 0x6#4 ∧ r.op ≠ 0x7#4 ∧ r.op ≠ 0xD#4 ∧ r.op ≠ 0xE#4 ∧ r.op ≠ 0xF#4) →
    ∃ t resp, step s = .next t ∧ t.rspValid = true ∧ t.response = some resp ∧ t.requests = rest

/-- A unit answers in request order, each request exactly as if it had been the only one: after as many steps as there
are requests up to and including `r`, the response on the port is the one `r` gets alone, and the requests behind it
are still owed (R18, R20, R35). -/
def Obligations.ResponsesComeInOrderAndAlone : Prop :=
  ∀ (s : State) (before after : List Request) (r : Request) (i : Instr) (resp : Response),
    s.rst = false → s.requests = before ++ r :: after → (∀ q ∈ before, q.wf = true) →
    decode r = .ok i → Answers i s resp →
    ∃ t, Host.Core.run core (before.length + 1) s = .next t ∧ t.response = some resp ∧ t.requests = after ∧
      t.rom = s.rom ∧ t.roundCarry = s.roundCarry

/-- A request presented to a unit that already has requests in flight is accepted, and answered after them as if it
had been the only one (R18, R35). That `REQ_VALID` is then 0 is the model's form of the port (log entry 3). -/
def Obligations.PresentedRequestIsAnsweredInTurn : Prop :=
  ∀ (s : State) (r : Request) (i : Instr) (resp : Response),
    s.rst = false → (∀ q ∈ s.requests, q.wf = true) → decode r = .ok i → Answers i s resp →
    ∃ t, Host.Core.run core (s.requests.length + 1) (s.present r) = .next t ∧ t.response = some resp ∧
      t.reqValid = false

/-! ### What a response depends on, and the frame -/

/-- An operation has exactly one response, and two units with the same ROM and the same build setting give the same
one, whatever else differs between them (R20, R113). -/
def Obligations.ResponseIsFunctionOfRequest : Prop :=
  ∀ (i : Instr) (s : State),
    (∃ resp, Answers i s resp) ∧
    (∀ resp resp', Answers i s resp → Answers i s resp' → resp = resp') ∧
    ∀ t : State, t.rom = s.rom → t.roundCarry = s.roundCarry →
      ∀ resp, Answers i s resp ↔ Answers i t resp

/-- The frame of every operation: the ROM at every index, the build setting, the requests in flight and the `RST` input
are unchanged (R10, R13, R14, R15). The clause on `draws` is about the model's own counter (DESIGN CHOICE, log entry 1)
and no rule of the spec: a free value is drawn exactly by an error. -/
def Obligations.FrameOfEveryOperation : Prop :=
  ∀ (i : Instr) (s t : State), exec i s = .next t →
    (∀ index : BitVec 3, romRead t.rom index = romRead s.rom index) ∧ t.rom = s.rom ∧
    t.roundCarry = s.roundCarry ∧ t.requests = s.requests ∧ t.rst = s.rst ∧ t.rspValid = true ∧
    t.draws = if t.rspErr = 0 then s.draws else s.draws + 1

/-- After any operation, one that failed too, the next request is answered exactly as if it had not been there (R108, R123). -/
def Obligations.OperationLeavesNothingBehind : Prop :=
  ∀ (i j : Instr) (s t : State) (resp : Response), exec i s = .next t →
    (Answers j t resp ↔ Answers j s resp)

/-- The response word of every transaction: `ERR` above 256 bits of `R`, and what each value of `ERR` means (R46). -/
def Obligations.ResponseWordCarriesOutcome : Prop :=
  ∀ (i : Instr) (s t : State), exec i s = .next t →
    t.rspWord.toNat = t.rspErr.toNat * 2 ^ 256 + t.rspR.toNat ∧
    (∀ v, t.response = some (.ok v) ↔ t.rspErr = 0#2 ∧ t.rspR = v) ∧
    (t.response = some (.err .multiplicationOverflow) ↔ t.rspErr = 1#2) ∧
    (t.response = some (.err .divisionByZero) ↔ t.rspErr = 2#2) ∧
    (t.response = some (.err .additionOverflow) ↔ t.rspErr = 3#2)

/-- The bits of `R` beside an error are the next free value and nothing computed. The model's form of R47, log entry 1. -/
def Obligations.ErrorResultIsFreeValue : Prop :=
  ∀ (i : Instr) (s : State) (k : MathError), Answers i s (.err k) →
    exec i s = .next { s with
      rspValid := true, rspErr := k.code, rspR := Config.errR s.draws, draws := s.draws + 1 }

/-! ### The constant ROM -/

/-- The address map of the constant ROM space and the relations between its words (R15, R31). -/
def Obligations.RomSpaceHoldsFiveWords : Prop :=
  ∀ s : State, RomIntact s →
    romRead s.rom 0#3 = some 0x0000000000000000000000000000000000000000000000000DE0B6B3A7640000#256 ∧
    romRead s.rom 1#3 = some 0x00000000000000000000000000000000000000000000000006F05B59D3B20000#256 ∧
    romRead s.rom 2#3 = some 0x0000000000000000000000000000000000000000033B2E3C9FD0803CE8000000#256 ∧
    romRead s.rom 3#3 = some 0x0000000000000000000000000000000000000000019D971E4FE8401E74000000#256 ∧
    romRead s.rom 4#3 = some 0x000000000000000000000000000000000000000000000000000000003B9ACA00#256 ∧
    romRead s.rom 5#3 = none ∧ romRead s.rom 6#3 = none ∧ romRead s.rom 7#3 = none ∧
    s.rom.wad.toNat = 2 * s.rom.halfWad.toNat ∧ s.rom.ray.toNat = 2 * s.rom.halfRay.toNat ∧
    s.rom.ray.toNat = s.rom.wad.toNat * s.rom.ratio.toNat

/-- The five constant reads succeed, always, with the words of the ROM (R60 to R65). -/
def Obligations.ConstantReadsAnswerTheRomWords : Prop :=
  ∀ s : State, RomIntact s →
    Answers .constWad s (.ok 1000000000000000000#256) ∧
    Answers .constHalfWad s (.ok 500000000000000000#256) ∧
    Answers .constRay s (.ok 1000000000000000000000000000#256) ∧
    Answers .constHalfRay s (.ok 500000000000000000000000000#256) ∧
    Answers .constRatio s (.ok 1000000000#256)

/-- The relations of the constants, checked through the unit itself (40_constants.md section 3). -/
def Obligations.ConstantRelationsShowThroughUnit : Prop :=
  ∀ s : State, RomIntact s →
    Answers (.waddiv 1000000000000000000#256 2000000000000000000#256) s (.ok 500000000000000000#256) ∧
    Answers (.raydiv 1000000000000000000000000000#256 2000000000000000000000000000#256) s
      (.ok 500000000000000000000000000#256) ∧
    Answers (.wad2ray 1000000000000000000#256) s (.ok 1000000000000000000000000000#256) ∧
    Answers (.ray2wad 1000000000000000000000000000#256) s (.ok 1000000000000000000#256)

/-! ### The multiplier -/

/-- `WADMUL` for all operands (R71). -/
def Obligations.WadmulResult : Prop :=
  ∀ (a b : Word) (s : State), RomIntact s →
    Answers (.wadmul a b) s
      (if 2 ^ 256 ≤ a.toNat * b.toNat then .err .multiplicationOverflow
       else if 2 ^ 256 ≤ a.toNat * b.toNat + 5 * 10 ^ 17 ∧ s.roundCarry = .addOvf then .err .additionOverflow
       else .ok (BitVec.ofNat 256 ((a.toNat * b.toNat + 5 * 10 ^ 17) / 10 ^ 18)))

/-- `RAYMUL` for all operands (R72). -/
def Obligations.RaymulResult : Prop :=
  ∀ (a b : Word) (s : State), RomIntact s →
    Answers (.raymul a b) s
      (if 2 ^ 256 ≤ a.toNat * b.toNat then .err .multiplicationOverflow
       else if 2 ^ 256 ≤ a.toNat * b.toNat + 5 * 10 ^ 26 ∧ s.roundCarry = .addOvf then .err .additionOverflow
       else .ok (BitVec.ofNat 256 ((a.toNat * b.toNat + 5 * 10 ^ 26) / 10 ^ 27)))

/-- Zero is absorbing (R73), under either setting of `ROUND_CARRY`. -/
def Obligations.ZeroAbsorbsInMultiply : Prop :=
  ∀ (a : Word) (s : State), RomIntact s →
    Answers (.wadmul a 0) s (.ok 0) ∧ Answers (.wadmul 0 a) s (.ok 0) ∧
    Answers (.raymul a 0) s (.ok 0) ∧ Answers (.raymul 0 a) s (.ok 0)

/-- A product `q * d + r` is rounded to `q` below the half and to `q + 1` from the half on (R74). -/
def Obligations.MultiplyRoundsHalfUp : Prop :=
  ∀ (a b v : Word) (q r : Nat) (s : State), RomIntact s →
    (Answers (.wadmul a b) s (.ok v) → a.toNat * b.toNat = q * 10 ^ 18 + r → r < 10 ^ 18 →
      v.toNat = if r < 5 * 10 ^ 17 then q else q + 1) ∧
    (Answers (.raymul a b) s (.ok v) → a.toNat * b.toNat = q * 10 ^ 27 + r → r < 10 ^ 27 →
      v.toNat = if r < 5 * 10 ^ 26 then q else q + 1)

/-- The largest results of the multiplier (R75). -/
def Obligations.MultiplyResultBounds : Prop :=
  ∀ (a b v : Word) (s : State), RomIntact s →
    (Answers (.wadmul a b) s (.ok v) →
      v.toNat ≤ 115792089237316195423570985008687907853269984665640564039458 ∧
      (s.roundCarry = .addOvf → v.toNat ≤ 115792089237316195423570985008687907853269984665640564039457)) ∧
    (Answers (.raymul a b) s (.ok v) →
      v.toNat ≤ 115792089237316195423570985008687907853269984665641 ∧
      (s.roundCarry = .addOvf → v.toNat ≤ 115792089237316195423570985008687907853269984665640))

/-- The overflow boundary of the multiplier, and that its operands commute, in value and in error (R76). -/
def Obligations.MultiplyBoundaryAndCommutes : Prop :=
  ∀ (a b : Word) (s : State), RomIntact s →
    (Answers (.wadmul a b) s (.err .multiplicationOverflow) ↔ b.toNat ≠ 0 ∧ (2 ^ 256 - 1) / b.toNat < a.toNat) ∧
    (Answers (.raymul a b) s (.err .multiplicationOverflow) ↔ b.toNat ≠ 0 ∧ (2 ^ 256 - 1) / b.toNat < a.toNat) ∧
    (∀ resp, Answers (.wadmul a b) s resp ↔ Answers (.wadmul b a) s resp) ∧
    (∀ resp, Answers (.raymul a b) s resp ↔ Answers (.raymul b a) s resp)

/-- The band of the multiplier: there, and only there, the two settings of `ROUND_CARRY` answer differently (R77). -/
def Obligations.MultiplyBandDependsOnRoundCarry : Prop :=
  ∀ (a b : Word) (s t : State), RomIntact s → RomIntact t → s.roundCarry = .addOvf → t.roundCarry = .exact →
    (if 2 ^ 256 - 5 * 10 ^ 17 ≤ a.toNat * b.toNat ∧ a.toNat * b.toNat ≤ 2 ^ 256 - 1 then
      Answers (.wadmul a b) s (.err .additionOverflow) ∧
      Answers (.wadmul a b) t (.ok (BitVec.ofNat 256 ((a.toNat * b.toNat + 5 * 10 ^ 17) / 10 ^ 18)))
     else ∀ resp, Answers (.wadmul a b) s resp ↔ Answers (.wadmul a b) t resp) ∧
    (if 2 ^ 256 - 5 * 10 ^ 26 ≤ a.toNat * b.toNat ∧ a.toNat * b.toNat ≤ 2 ^ 256 - 1 then
      Answers (.raymul a b) s (.err .additionOverflow) ∧
      Answers (.raymul a b) t (.ok (BitVec.ofNat 256 ((a.toNat * b.toNat + 5 * 10 ^ 26) / 10 ^ 27)))
     else ∀ resp, Answers (.raymul a b) s resp ↔ Answers (.raymul a b) t resp)

/-- Multiplying by one gives the operand back wherever the product fits, under either setting (R78). -/
def Obligations.MultiplyByOneIsIdentity : Prop :=
  ∀ (a : Word) (s : State), RomIntact s →
    Answers (.wadmul a 1000000000000000000#256) s
      (if a.toNat ≤ 115792089237316195423570985008687907853269984665640564039457 then .ok a
       else .err .multiplicationOverflow) ∧
    Answers (.raymul a 1000000000000000000000000000#256) s
      (if a.toNat ≤ 115792089237316195423570985008687907853269984665640 then .ok a
       else .err .multiplicationOverflow)

/-! ### The divider -/

/-- `WADDIV` for all operands (R81). -/
def Obligations.WaddivResult : Prop :=
  ∀ (a b : Word) (s : State), RomIntact s →
    Answers (.waddiv a b) s
      (if b.toNat = 0 then .err .divisionByZero
       else if 2 ^ 256 ≤ a.toNat * 10 ^ 18 then .err .multiplicationOverflow
       else if 2 ^ 256 ≤ a.toNat * 10 ^ 18 + b.toNat / 2 ∧ s.roundCarry = .addOvf then .err .additionOverflow
       else .ok (BitVec.ofNat 256 ((a.toNat * 10 ^ 18 + b.toNat / 2) / b.toNat)))

/-- `RAYDIV` for all operands (R82). -/
def Obligations.RaydivResult : Prop :=
  ∀ (a b : Word) (s : State), RomIntact s →
    Answers (.raydiv a b) s
      (if b.toNat = 0 then .err .divisionByZero
       else if 2 ^ 256 ≤ a.toNat * 10 ^ 27 then .err .multiplicationOverflow
       else if 2 ^ 256 ≤ a.toNat * 10 ^ 27 + b.toNat / 2 ∧ s.roundCarry = .addOvf then .err .additionOverflow
       else .ok (BitVec.ofNat 256 ((a.toNat * 10 ^ 27 + b.toNat / 2) / b.toNat)))

/-- Zero numerator (R83): zero over every nonzero divisor, and `DivisionByZero` over zero. -/
def Obligations.ZeroNumeratorDividesToZero : Prop :=
  ∀ (b : Word) (s : State), RomIntact s →
    Answers (.waddiv 0 b) s (if b = 0 then .err .divisionByZero else .ok 0) ∧
    Answers (.raydiv 0 b) s (if b = 0 then .err .divisionByZero else .ok 0)

/-- The quotient is rounded to the nearest integer, an exact half up, for even and for odd divisors (R84). -/
def Obligations.DivideRoundsHalfUp : Prop :=
  ∀ (a b v : Word) (q r k : Nat) (s : State), RomIntact s →
    (Answers (.waddiv a b) s (.ok v) → a.toNat * 10 ^ 18 = q * b.toNat + r → r < b.toNat →
      (b.toNat = 2 * k → v.toNat = if r < k then q else q + 1) ∧
      (b.toNat = 2 * k + 1 → v.toNat = if r ≤ k then q else q + 1)) ∧
    (Answers (.raydiv a b) s (.ok v) → a.toNat * 10 ^ 27 = q * b.toNat + r → r < b.toNat →
      (b.toNat = 2 * k → v.toNat = if r < k then q else q + 1) ∧
      (b.toNat = 2 * k + 1 → v.toNat = if r ≤ k then q else q + 1))

/-- The largest results of the divider, and where they are reached (R85). -/
def Obligations.DivideResultBounds : Prop :=
  ∀ (a b v : Word) (s : State), RomIntact s →
    (Answers (.waddiv a b) s (.ok v) →
      v.toNat ≤ 115792089237316195423570985008687907853269984665640564039457000000000000000000) ∧
    (Answers (.raydiv a b) s (.ok v) →
      v.toNat ≤ 115792089237316195423570985008687907853269984665640000000000000000000000000000) ∧
    Answers (.waddiv 115792089237316195423570985008687907853269984665640564039457#256 1#256) s
      (.ok 115792089237316195423570985008687907853269984665640564039457000000000000000000#256) ∧
    Answers (.raydiv 115792089237316195423570985008687907853269984665640#256 1#256) s
      (.ok 115792089237316195423570985008687907853269984665640000000000000000000000000000#256)

/-- The overflow boundary of the divider depends on the numerator alone, once the divisor is not zero (R86). -/
def Obligations.DivideOverflowBoundary : Prop :=
  ∀ (a b : Word) (s : State), RomIntact s → b ≠ 0 →
    (Answers (.waddiv a b) s (.err .multiplicationOverflow) ↔ (2 ^ 256 - 1) / 10 ^ 18 < a.toNat) ∧
    (Answers (.raydiv a b) s (.err .multiplicationOverflow) ↔ (2 ^ 256 - 1) / 10 ^ 27 < a.toNat)

/-- The band of the divider: there, and only there, the two settings of `ROUND_CARRY` answer differently (R87). -/
def Obligations.DivideBandDependsOnRoundCarry : Prop :=
  ∀ (a b : Word) (s t : State), RomIntact s → RomIntact t → s.roundCarry = .addOvf → t.roundCarry = .exact →
    (if b ≠ 0 ∧ a.toNat * 10 ^ 18 ≤ 2 ^ 256 - 1 ∧ 2 ^ 256 ≤ a.toNat * 10 ^ 18 + b.toNat / 2 then
      Answers (.waddiv a b) s (.err .additionOverflow) ∧
      Answers (.waddiv a b) t (.ok (BitVec.ofNat 256 ((a.toNat * 10 ^ 18 + b.toNat / 2) / b.toNat)))
     else ∀ resp, Answers (.waddiv a b) s resp ↔ Answers (.waddiv a b) t resp) ∧
    (if b ≠ 0 ∧ a.toNat * 10 ^ 27 ≤ 2 ^ 256 - 1 ∧ 2 ^ 256 ≤ a.toNat * 10 ^ 27 + b.toNat / 2 then
      Answers (.raydiv a b) s (.err .additionOverflow) ∧
      Answers (.raydiv a b) t (.ok (BitVec.ofNat 256 ((a.toNat * 10 ^ 27 + b.toNat / 2) / b.toNat)))
     else ∀ resp, Answers (.raydiv a b) s resp ↔ Answers (.raydiv a b) t resp)

/-- Dividing by one gives the numerator back wherever the product fits, and a number over itself is one wherever
the divider gives a result (R88). -/
def Obligations.DivideByOneAndBySelf : Prop :=
  ∀ (a : Word) (s : State), RomIntact s →
    Answers (.waddiv a 1000000000000000000#256) s
      (if a.toNat ≤ (2 ^ 256 - 1) / 10 ^ 18 then .ok a else .err .multiplicationOverflow) ∧
    Answers (.raydiv a 1000000000000000000000000000#256) s
      (if a.toNat ≤ (2 ^ 256 - 1) / 10 ^ 27 then .ok a else .err .multiplicationOverflow) ∧
    (1 ≤ a.toNat → a.toNat ≤ (2 ^ 256 - 1) / 10 ^ 18 →
      (a.toNat * 10 ^ 18 + a.toNat / 2 < 2 ^ 256 ∨ s.roundCarry = .exact) →
      Answers (.waddiv a a) s (.ok 1000000000000000000#256)) ∧
    (1 ≤ a.toNat → a.toNat ≤ (2 ^ 256 - 1) / 10 ^ 27 →
      (a.toNat * 10 ^ 27 + a.toNat / 2 < 2 ^ 256 ∨ s.roundCarry = .exact) →
      Answers (.raydiv a a) s (.ok 1000000000000000000000000000#256))

/-- Multiplying and then dividing by `b`, where both succeed: `a` or `a + 1` for `b` of at least one, and within
`d / (2 * b) + 1/2` of `a` for every `b` (R89, which corrects the source's property). -/
def Obligations.DivideUndoesMultiply : Prop :=
  ∀ (a b m r : Word) (s : State), RomIntact s →
    (Answers (.wadmul a b) s (.ok m) → Answers (.waddiv m b) s (.ok r) →
      (10 ^ 18 ≤ b.toNat → r.toNat = a.toNat ∨ r.toNat = a.toNat + 1) ∧
      2 * b.toNat * r.toNat ≤ 2 * b.toNat * a.toNat + 10 ^ 18 + b.toNat ∧
      2 * b.toNat * a.toNat ≤ 2 * b.toNat * r.toNat + 10 ^ 18 + b.toNat) ∧
    (Answers (.raymul a b) s (.ok m) → Answers (.raydiv m b) s (.ok r) →
      (10 ^ 27 ≤ b.toNat → r.toNat = a.toNat ∨ r.toNat = a.toNat + 1) ∧
      2 * b.toNat * r.toNat ≤ 2 * b.toNat * a.toNat + 10 ^ 27 + b.toNat ∧
      2 * b.toNat * a.toNat ≤ 2 * b.toNat * r.toNat + 10 ^ 27 + b.toNat)

/-! ### The converters -/

/-- `RAY2WAD` for all operands, under either setting of `ROUND_CARRY` (R90). -/
def Obligations.Ray2wadResult : Prop :=
  ∀ (x : Word) (s : State), RomIntact s →
    Answers (.ray2wad x) s
      (if 2 ^ 256 ≤ x.toNat + 500000000 then .err .additionOverflow
       else .ok (BitVec.ofNat 256 ((x.toNat + 500000000) / 1000000000)))

/-- `WAD2RAY` for all operands (R91). -/
def Obligations.Wad2rayResult : Prop :=
  ∀ (x : Word) (s : State), RomIntact s →
    Answers (.wad2ray x) s
      (if 2 ^ 256 ≤ x.toNat * 1000000000 then .err .multiplicationOverflow
       else .ok (BitVec.ofNat 256 (x.toNat * 1000000000)))

/-- `RAY2WAD` rounds half up (R92). -/
def Obligations.Ray2wadRoundsHalfUp : Prop :=
  ∀ (x v : Word) (k r : Nat) (s : State), RomIntact s → Answers (.ray2wad x) s (.ok v) →
    x.toNat = k * 10 ^ 9 + r → r < 10 ^ 9 →
    v.toNat = if r < 500000000 then k else k + 1

/-- `WAD2RAY` loses nothing and is strictly increasing where it succeeds (R93). -/
def Obligations.Wad2rayIsExact : Prop :=
  ∀ (x y v w : Word) (s : State), RomIntact s → Answers (.wad2ray x) s (.ok v) → Answers (.wad2ray y) s (.ok w) →
    v.toNat = x.toNat * 10 ^ 9 ∧ v.toNat % 10 ^ 9 = 0 ∧ v.toNat / 10 ^ 9 = x.toNat ∧
    (x.toNat < y.toNat → v.toNat < w.toNat)

/-- The round trip from WAD to RAY and back, row by row (R94). -/
def Obligations.RoundTripTable : Prop :=
  ∀ (x : Word) (s : State), RomIntact s →
    if x.toNat < 115792089237316195423570985008687907853269984665640564039457584007913 then
      ∃ v, Answers (.wad2ray x) s (.ok v) ∧ v.toNat = x.toNat * 10 ^ 9 ∧ Answers (.ray2wad v) s (.ok x)
    else if x.toNat = 115792089237316195423570985008687907853269984665640564039457584007913 then
      ∃ v, Answers (.wad2ray x) s (.ok v) ∧ v.toNat = 2 ^ 256 - 1 - 129639935 ∧
        Answers (.ray2wad v) s (.err .additionOverflow)
    else Answers (.wad2ray x) s (.err .multiplicationOverflow)

/-- The carry of `RAY2WAD` is not subject to `ROUND_CARRY` (R95). -/
def Obligations.Ray2wadIgnoresRoundCarry : Prop :=
  ∀ (x : Word) (s t : State), RomIntact s → RomIntact t →
    (∀ resp, Answers (.ray2wad x) s resp ↔ Answers (.ray2wad x) t resp) ∧
    Answers (.ray2wad (BitVec.allOnes 256)) s (.err .additionOverflow)

/-! ### The errors -/

/-- Exactly when `MultiplicationOverflow` is raised, operation by operation (R101). -/
def Obligations.MultiplicationOverflowExactly : Prop :=
  ∀ s : State, RomIntact s →
    (∀ a b, Answers (.wadmul a b) s (.err .multiplicationOverflow) ↔ 2 ^ 256 ≤ a.toNat * b.toNat) ∧
    (∀ a b, Answers (.raymul a b) s (.err .multiplicationOverflow) ↔ 2 ^ 256 ≤ a.toNat * b.toNat) ∧
    (∀ a b, Answers (.waddiv a b) s (.err .multiplicationOverflow) ↔
      b ≠ 0 ∧ 115792089237316195423570985008687907853269984665640564039457 < a.toNat) ∧
    (∀ a b, Answers (.raydiv a b) s (.err .multiplicationOverflow) ↔
      b ≠ 0 ∧ 115792089237316195423570985008687907853269984665640 < a.toNat) ∧
    (∀ x, Answers (.wad2ray x) s (.err .multiplicationOverflow) ↔
      115792089237316195423570985008687907853269984665640564039457584007913 < x.toNat)

/-- Exactly when `DivisionByZero` is raised: by the divider with a zero divisor, whatever the numerator (R102). -/
def Obligations.DivisionByZeroExactly : Prop :=
  ∀ (i : Instr) (s : State), RomIntact s →
    (Answers i s (.err .divisionByZero) ↔ ∃ a : Word, i = .waddiv a 0 ∨ i = .raydiv a 0)

/-- Exactly when `AdditionOverflow` is raised, operation by operation (R103). -/
def Obligations.AdditionOverflowExactly : Prop :=
  ∀ s : State, RomIntact s →
    (∀ x, Answers (.ray2wad x) s (.err .additionOverflow) ↔ 2 ^ 256 ≤ x.toNat + 500000000) ∧
    (∀ a b, Answers (.wadmul a b) s (.err .additionOverflow) ↔
      s.roundCarry = .addOvf ∧ a.toNat * b.toNat < 2 ^ 256 ∧ 2 ^ 256 ≤ a.toNat * b.toNat + 5 * 10 ^ 17) ∧
    (∀ a b, Answers (.raymul a b) s (.err .additionOverflow) ↔
      s.roundCarry = .addOvf ∧ a.toNat * b.toNat < 2 ^ 256 ∧ 2 ^ 256 ≤ a.toNat * b.toNat + 5 * 10 ^ 26) ∧
    (∀ a b, Answers (.waddiv a b) s (.err .additionOverflow) ↔
      s.roundCarry = .addOvf ∧ b ≠ 0 ∧ a.toNat * 10 ^ 18 < 2 ^ 256 ∧ 2 ^ 256 ≤ a.toNat * 10 ^ 18 + b.toNat / 2) ∧
    (∀ a b, Answers (.raydiv a b) s (.err .additionOverflow) ↔
      s.roundCarry = .addOvf ∧ b ≠ 0 ∧ a.toNat * 10 ^ 27 < 2 ^ 256 ∧ 2 ^ 256 ≤ a.toNat * 10 ^ 27 + b.toNat / 2) ∧
    (∀ x, ¬ Answers (.wad2ray x) s (.err .additionOverflow)) ∧
    ∀ i ∈ [Instr.constWad, .constHalfWad, .constRay, .constHalfRay, .constRatio], ¬ Answers i s (.err .additionOverflow)

/-- Which operation can raise which error: the rows of the table of R104, its `no` cells for all operands and each
other cell by operands that raise it. -/
def Obligations.ErrorsEachOperationCanRaise : Prop :=
  ∀ s : State, RomIntact s →
    (∀ a b, ¬ Answers (.wadmul a b) s (.err .divisionByZero) ∧ ¬ Answers (.raymul a b) s (.err .divisionByZero)) ∧
    (∀ x, ¬ Answers (.ray2wad x) s (.err .multiplicationOverflow) ∧ ¬ Answers (.ray2wad x) s (.err .divisionByZero)) ∧
    (∀ x, ¬ Answers (.wad2ray x) s (.err .divisionByZero) ∧ ¬ Answers (.wad2ray x) s (.err .additionOverflow)) ∧
    (∀ i ∈ [Instr.constWad, .constHalfWad, .constRay, .constHalfRay, .constRatio], ∀ k, ¬ Answers i s (.err k)) ∧
    (∃ a b, Answers (.wadmul a b) s (.err .multiplicationOverflow)) ∧
    (∃ a b, Answers (.raymul a b) s (.err .multiplicationOverflow)) ∧
    (∃ a b, Answers (.waddiv a b) s (.err .multiplicationOverflow)) ∧
    (∃ a b, Answers (.raydiv a b) s (.err .multiplicationOverflow)) ∧
    (∃ x, Answers (.wad2ray x) s (.err .multiplicationOverflow)) ∧
    (∃ a b, Answers (.waddiv a b) s (.err .divisionByZero)) ∧
    (∃ a b, Answers (.raydiv a b) s (.err .divisionByZero)) ∧
    (∃ x, Answers (.ray2wad x) s (.err .additionOverflow)) ∧
    (s.roundCarry = .addOvf ↔ ∃ a b, Answers (.wadmul a b) s (.err .additionOverflow)) ∧
    (s.roundCarry = .addOvf ↔ ∃ a b, Answers (.raymul a b) s (.err .additionOverflow)) ∧
    (s.roundCarry = .addOvf ↔ ∃ a b, Answers (.waddiv a b) s (.err .additionOverflow)) ∧
    (s.roundCarry = .addOvf ↔ ∃ a b, Answers (.raydiv a b) s (.err .additionOverflow))

/-- Priority: a zero divisor is reported before an overflowing product, and an overflowing product before the sum is
formed (R105). -/
def Obligations.ErrorPriority : Prop :=
  ∀ (a b : Word) (s : State), RomIntact s →
    Answers (.waddiv a 0) s (.err .divisionByZero) ∧
    Answers (.raydiv a 0) s (.err .divisionByZero) ∧
    (2 ^ 256 ≤ a.toNat * b.toNat → Answers (.wadmul a b) s (.err .multiplicationOverflow) ∧
      Answers (.raymul a b) s (.err .multiplicationOverflow)) ∧
    (b ≠ 0 → 2 ^ 256 ≤ a.toNat * 10 ^ 18 → Answers (.waddiv a b) s (.err .multiplicationOverflow)) ∧
    (b ≠ 0 → 2 ^ 256 ≤ a.toNat * 10 ^ 27 → Answers (.raydiv a b) s (.err .multiplicationOverflow))

/-- Every success is the complete exact value of its formula, as a natural number: never a wrapped, clamped or substituted
one (R22, R107). -/
def Obligations.SuccessIsExactFormula : Prop :=
  ∀ (a b v : Word) (s : State), RomIntact s →
    (Answers (.wadmul a b) s (.ok v) → v.toNat = (a.toNat * b.toNat + 5 * 10 ^ 17) / 10 ^ 18) ∧
    (Answers (.raymul a b) s (.ok v) → v.toNat = (a.toNat * b.toNat + 5 * 10 ^ 26) / 10 ^ 27) ∧
    (Answers (.waddiv a b) s (.ok v) → v.toNat = (a.toNat * 10 ^ 18 + b.toNat / 2) / b.toNat) ∧
    (Answers (.raydiv a b) s (.ok v) → v.toNat = (a.toNat * 10 ^ 27 + b.toNat / 2) / b.toNat) ∧
    (Answers (.ray2wad a) s (.ok v) → v.toNat = (a.toNat + 5 * 10 ^ 8) / 10 ^ 9) ∧
    (Answers (.wad2ray a) s (.ok v) → v.toNat = a.toNat * 10 ^ 9)

/-- The loss of every success is one rounding step and no more: the result against the exact quotient is off by more than
-1/2 and at most +1/2 (R74, R84, R92). -/
def Obligations.RoundingErrorIsAtMostHalf : Prop :=
  ∀ (a b v : Word) (s : State), RomIntact s →
    (Answers (.wadmul a b) s (.ok v) →
      2 * v.toNat * 10 ^ 18 ≤ 2 * (a.toNat * b.toNat) + 10 ^ 18 ∧
      2 * (a.toNat * b.toNat) < 2 * v.toNat * 10 ^ 18 + 10 ^ 18) ∧
    (Answers (.raymul a b) s (.ok v) →
      2 * v.toNat * 10 ^ 27 ≤ 2 * (a.toNat * b.toNat) + 10 ^ 27 ∧
      2 * (a.toNat * b.toNat) < 2 * v.toNat * 10 ^ 27 + 10 ^ 27) ∧
    (Answers (.waddiv a b) s (.ok v) →
      2 * v.toNat * b.toNat ≤ 2 * (a.toNat * 10 ^ 18) + b.toNat ∧
      2 * (a.toNat * 10 ^ 18) < 2 * v.toNat * b.toNat + b.toNat) ∧
    (Answers (.raydiv a b) s (.ok v) →
      2 * v.toNat * b.toNat ≤ 2 * (a.toNat * 10 ^ 27) + b.toNat ∧
      2 * (a.toNat * 10 ^ 27) < 2 * v.toNat * b.toNat + b.toNat) ∧
    (Answers (.ray2wad a) s (.ok v) →
      2 * v.toNat * 10 ^ 9 ≤ 2 * a.toNat + 10 ^ 9 ∧ 2 * a.toNat < 2 * v.toNat * 10 ^ 9 + 10 ^ 9)
end

