-- ==== Sys2Proof/Laws/State.lean ====
section
/-! SUPPORT. One lemma per field per named update of the state, so that no later proof unfolds a record update. -/

namespace Sys2Proof.Machine

@[simp] theorem State.present_rst (s : State) (r : Request) : (s.present r).rst = s.rst := rfl
@[simp] theorem State.present_requests (s : State) (r : Request) : (s.present r).requests = s.requests ++ [r] := rfl
@[simp] theorem State.present_rspValid (s : State) (r : Request) : (s.present r).rspValid = s.rspValid := rfl
@[simp] theorem State.present_rspErr (s : State) (r : Request) : (s.present r).rspErr = s.rspErr := rfl
@[simp] theorem State.present_rspR (s : State) (r : Request) : (s.present r).rspR = s.rspR := rfl
@[simp] theorem State.present_rom (s : State) (r : Request) : (s.present r).rom = s.rom := rfl
@[simp] theorem State.present_roundCarry (s : State) (r : Request) : (s.present r).roundCarry = s.roundCarry := rfl
@[simp] theorem State.present_draws (s : State) (r : Request) : (s.present r).draws = s.draws := rfl

@[simp] theorem State.takeRequest_rst (s : State) : s.takeRequest.rst = s.rst := rfl
@[simp] theorem State.takeRequest_requests (s : State) : s.takeRequest.requests = s.requests.tail := rfl
@[simp] theorem State.takeRequest_rspValid (s : State) : s.takeRequest.rspValid = s.rspValid := rfl
@[simp] theorem State.takeRequest_rspErr (s : State) : s.takeRequest.rspErr = s.rspErr := rfl
@[simp] theorem State.takeRequest_rspR (s : State) : s.takeRequest.rspR = s.rspR := rfl
@[simp] theorem State.takeRequest_rom (s : State) : s.takeRequest.rom = s.rom := rfl
@[simp] theorem State.takeRequest_roundCarry (s : State) : s.takeRequest.roundCarry = s.roundCarry := rfl
@[simp] theorem State.takeRequest_draws (s : State) : s.takeRequest.draws = s.draws := rfl

@[simp] theorem State.returnOk_rst (s : State) (v : Word) : (s.returnOk v).rst = s.rst := rfl
@[simp] theorem State.returnOk_requests (s : State) (v : Word) : (s.returnOk v).requests = s.requests := rfl
@[simp] theorem State.returnOk_rspValid (s : State) (v : Word) : (s.returnOk v).rspValid = true := rfl
@[simp] theorem State.returnOk_rspErr (s : State) (v : Word) : (s.returnOk v).rspErr = 0 := rfl
@[simp] theorem State.returnOk_rspR (s : State) (v : Word) : (s.returnOk v).rspR = v := rfl
@[simp] theorem State.returnOk_rom (s : State) (v : Word) : (s.returnOk v).rom = s.rom := rfl
@[simp] theorem State.returnOk_roundCarry (s : State) (v : Word) : (s.returnOk v).roundCarry = s.roundCarry := rfl
@[simp] theorem State.returnOk_draws (s : State) (v : Word) : (s.returnOk v).draws = s.draws := rfl

@[simp] theorem State.raise_rst (s : State) (k : MathError) : (s.raise k).rst = s.rst := rfl
@[simp] theorem State.raise_requests (s : State) (k : MathError) : (s.raise k).requests = s.requests := rfl
@[simp] theorem State.raise_rspValid (s : State) (k : MathError) : (s.raise k).rspValid = true := rfl
@[simp] theorem State.raise_rspErr (s : State) (k : MathError) : (s.raise k).rspErr = k.code := rfl
@[simp] theorem State.raise_rspR (s : State) (k : MathError) : (s.raise k).rspR = Config.errR s.draws := rfl
@[simp] theorem State.raise_rom (s : State) (k : MathError) : (s.raise k).rom = s.rom := rfl
@[simp] theorem State.raise_roundCarry (s : State) (k : MathError) : (s.raise k).roundCarry = s.roundCarry := rfl
@[simp] theorem State.raise_draws (s : State) (k : MathError) : (s.raise k).draws = s.draws + 1 := rfl

@[simp] theorem State.idle_rst (s : State) : s.idle.rst = s.rst := rfl
@[simp] theorem State.idle_requests (s : State) : s.idle.requests = s.requests := rfl
@[simp] theorem State.idle_rspValid (s : State) : s.idle.rspValid = false := rfl
@[simp] theorem State.idle_rspErr (s : State) : s.idle.rspErr = Config.idleErr s.draws := rfl
@[simp] theorem State.idle_rspR (s : State) : s.idle.rspR = Config.idleR s.draws := rfl
@[simp] theorem State.idle_rom (s : State) : s.idle.rom = s.rom := rfl
@[simp] theorem State.idle_roundCarry (s : State) : s.idle.roundCarry = s.roundCarry := rfl
@[simp] theorem State.idle_draws (s : State) : s.idle.draws = s.draws + 1 := rfl

@[simp] theorem State.applyReset_rst (s : State) : s.applyReset.rst = false := rfl
@[simp] theorem State.applyReset_requests (s : State) : s.applyReset.requests = [] := rfl
@[simp] theorem State.applyReset_rspValid (s : State) : s.applyReset.rspValid = false := rfl
@[simp] theorem State.applyReset_rspErr (s : State) : s.applyReset.rspErr = Config.idleErr s.draws := rfl
@[simp] theorem State.applyReset_rspR (s : State) : s.applyReset.rspR = Config.idleR s.draws := rfl
@[simp] theorem State.applyReset_rom (s : State) : s.applyReset.rom = s.rom := rfl
@[simp] theorem State.applyReset_roundCarry (s : State) : s.applyReset.roundCarry = s.roundCarry := rfl
@[simp] theorem State.applyReset_draws (s : State) : s.applyReset.draws = s.draws + 1 := rfl

@[simp] theorem State.reset_rst : State.reset.rst = false := rfl
@[simp] theorem State.reset_requests : State.reset.requests = [] := rfl
@[simp] theorem State.reset_rspValid : State.reset.rspValid = false := rfl
@[simp] theorem State.reset_rspErr : State.reset.rspErr = 0 := rfl
@[simp] theorem State.reset_rspR : State.reset.rspR = 0 := rfl
@[simp] theorem State.reset_rom : State.reset.rom = romContents := rfl
@[simp] theorem State.reset_roundCarry : State.reset.roundCarry = .addOvf := rfl
@[simp] theorem State.reset_draws : State.reset.draws = 0 := rfl

end Sys2Proof.Machine
end

