-- ==== Sys2Proof/Laws/Ops.lean ====
section
/-! SUPPORT. What each shared operation can do, said once. -/

namespace Sys2Proof.Machine

/-! ### The response port -/

@[simp] theorem errorOfCode_zero : errorOfCode 0 = none := rfl

@[simp] theorem errorOfCode_code (k : MathError) : errorOfCode k.code = some k := by cases k <;> rfl

theorem MathError.code_ne_zero (k : MathError) : k.code ≠ 0 := by cases k <;> decide

theorem MathError.code_injective {k l : MathError} (h : k.code = l.code) : k = l := by
  have := congrArg errorOfCode h
  simpa using this

@[simp] theorem State.response_returnOk (s : State) (v : Word) : (s.returnOk v).response = some (.ok v) := rfl

@[simp] theorem State.response_raise (s : State) (k : MathError) : (s.raise k).response = some (.err k) := by
  simp [State.response]

/-- A response put on the port is the one the host reads. -/
@[simp] theorem State.response_respond (s : State) (resp : Response) :
    (s.respond resp).response = some resp := by
  cases resp <;> simp [State.respond]

@[simp] theorem State.response_idle (s : State) : s.idle.response = none := rfl

@[simp] theorem State.response_applyReset (s : State) : s.applyReset.response = none := rfl

/-! ### What a response leaves unchanged -/

@[simp] theorem State.respond_rom (s : State) (resp : Response) : (s.respond resp).rom = s.rom := by
  cases resp <;> rfl

@[simp] theorem State.respond_roundCarry (s : State) (resp : Response) :
    (s.respond resp).roundCarry = s.roundCarry := by cases resp <;> rfl

@[simp] theorem State.respond_requests (s : State) (resp : Response) :
    (s.respond resp).requests = s.requests := by cases resp <;> rfl

@[simp] theorem State.respond_rst (s : State) (resp : Response) : (s.respond resp).rst = s.rst := by
  cases resp <;> rfl

@[simp] theorem State.respond_rspValid (s : State) (resp : Response) :
    (s.respond resp).rspValid = true := by cases resp <;> rfl

theorem State.respond_unchanged (s : State) (resp : Response) : Unchanged s (s.respond resp) := by
  simp [Unchanged]

/-! ### The detector -/

theorem checkProduct_of_fits {p : Nat} (h : p < 2 ^ 256) (f : Nat → Response) : checkProduct p f = f p :=
  if_pos h

theorem checkProduct_of_not_fits {p : Nat} (h : 2 ^ 256 ≤ p) (f : Nat → Response) :
    checkProduct p f = .err .multiplicationOverflow :=
  if_neg (Nat.not_lt.2 h)

theorem checkSum_of_fits {n : Nat} (h : n < 2 ^ 256) (f : Nat → Response) : checkSum n f = f n :=
  if_pos h

theorem checkSum_of_not_fits {n : Nat} (h : 2 ^ 256 ≤ n) (f : Nat → Response) :
    checkSum n f = .err .additionOverflow :=
  if_neg (Nat.not_lt.2 h)

/-- Where the rounding sum fits, both settings of `ROUND_CARRY` go on with it. -/
theorem checkRoundingSum_of_fits {n : Nat} (h : n < 2 ^ 256) (carry : RoundCarry) (f : Nat → Response) :
    checkRoundingSum carry n f = f n := by
  cases carry
  · exact checkSum_of_fits h f
  · rfl

/-- The rounding sum answers an error only under `ADD_OVF` and only where it does not fit. -/
theorem checkRoundingSum_eq (carry : RoundCarry) (n : Nat) (f : Nat → Response) :
    checkRoundingSum carry n f =
      if 2 ^ 256 ≤ n ∧ carry = .addOvf then .err .additionOverflow else f n := by
  cases carry
  · rcases Nat.lt_or_ge n (2 ^ 256) with h | h
    · exact (checkSum_of_fits h f).trans (if_neg fun hn => Nat.not_le.2 h hn.1).symm
    · exact (checkSum_of_not_fits h f).trans (if_pos ⟨h, rfl⟩).symm
  · exact (if_neg fun hn => RoundCarry.noConfusion hn.2).symm

theorem checkDivisor_zero (resp : Response) : checkDivisor 0 resp = .err .divisionByZero := rfl

theorem checkDivisor_of_ne {b : Word} (h : b ≠ 0) (resp : Response) : checkDivisor b resp = resp :=
  if_neg h

/-! ### The ROM -/

@[simp] theorem romRead_zero (rom : Rom) : romRead rom 0#3 = some rom.wad := rfl
@[simp] theorem romRead_one (rom : Rom) : romRead rom 1#3 = some rom.halfWad := rfl
@[simp] theorem romRead_two (rom : Rom) : romRead rom 2#3 = some rom.ray := rfl
@[simp] theorem romRead_three (rom : Rom) : romRead rom 3#3 = some rom.halfRay := rfl
@[simp] theorem romRead_four (rom : Rom) : romRead rom 4#3 = some rom.ratio := rfl

section

variable {s : State} (h : RomIntact s)
include h

theorem RomIntact.rom_eq : s.rom = romContents := h
theorem RomIntact.unit_wad : s.unit .wad = 10 ^ 18 := by rw [State.unit, h.rom_eq]; decide
theorem RomIntact.unit_ray : s.unit .ray = 10 ^ 27 := by rw [State.unit, h.rom_eq]; decide
theorem RomIntact.half_wad : s.half .wad = 5 * 10 ^ 17 := by rw [State.half, h.rom_eq]; decide
theorem RomIntact.half_ray : s.half .ray = 5 * 10 ^ 26 := by rw [State.half, h.rom_eq]; decide
theorem RomIntact.ratio : s.ratio = 10 ^ 9 := by rw [State.ratio, h.rom_eq]; decide
theorem RomIntact.halfRatio : s.halfRatio = 5 * 10 ^ 8 := by rw [State.halfRatio, h.ratio]; decide

end

/-! ### The request port -/

theorem State.reqValid_eq_false (s : State) : s.reqValid = false ↔ s.requests = [] := by
  simp [State.reqValid]

end Sys2Proof.Machine
end

