-- ==== Sys2Proof/Laws/Exec.lean ====
section
/-! SUPPORT. What running an operation does, said once: every operation puts one response on the port, and which
one is a function of the operation, the ROM and the setting of the build. -/

namespace Sys2Proof.Machine

/-- The response of an operation. -/
def State.answer (s : State) : Instr → Response
  | .wadmul a b   => mulround s.roundCarry a b (s.unit .wad) (s.half .wad)
  | .waddiv a b   => divround s.roundCarry a b (s.unit .wad)
  | .raymul a b   => mulround s.roundCarry a b (s.unit .ray) (s.half .ray)
  | .raydiv a b   => divround s.roundCarry a b (s.unit .ray)
  | .ray2wad x    => downscale x s.ratio s.halfRatio
  | .wad2ray x    => upscale x s.ratio
  | .constWad     => .ok s.rom.wad
  | .constHalfWad => .ok s.rom.halfWad
  | .constRay     => .ok s.rom.ray
  | .constHalfRay => .ok s.rom.halfRay
  | .constRatio   => .ok s.rom.ratio

/-- Everything an operation does: it completes, with its response on the port. -/
theorem exec_eq (i : Instr) (s : State) : exec i s = .next (s.respond (s.answer i)) := by
  cases i <;> rfl

/-- The inversion of `exec`: a next state is the state with the response on its port. -/
theorem exec_cases {i : Instr} {s t : State} (h : exec i s = .next t) : t = s.respond (s.answer i) := by
  rw [exec_eq] at h
  cases h
  rfl

theorem answers_answer (i : Instr) (s : State) : Answers i s (s.answer i) :=
  ⟨_, exec_eq i s, State.response_respond .., State.respond_unchanged ..⟩

/-- To say that an operation answers a response is to say that the response is its answer. -/
theorem answers_iff {i : Instr} {s : State} {resp : Response} : Answers i s resp ↔ resp = s.answer i := by
  constructor
  · rintro ⟨t, ht, hr, -⟩
    rw [exec_cases ht, State.response_respond] at hr
    exact (Option.some.inj hr).symm
  · rintro rfl
    exact answers_answer i s

/-- The response depends on the state through the ROM and the setting of the build alone. -/
theorem State.answer_congr {s t : State} (hr : t.rom = s.rom) (hc : t.roundCarry = s.roundCarry) (i : Instr) :
    t.answer i = s.answer i := by
  cases i <;> simp [State.answer, State.unit, State.half, State.ratio, State.halfRatio, hr, hc]

/-! ### A transaction and a step -/

theorem serve_of_decode {r : Request} {i : Instr} (h : decode r = .ok i) (s : State) : serve r s = exec i s := by
  simp [serve, h]

theorem step_request {s : State} {r : Request} {rest : List Request} (h1 : s.rst = false)
    (h2 : s.requests = r :: rest) : step s = serve r s.takeRequest := by
  simp [step, h1, h2]

theorem step_idle {s : State} (h1 : s.rst = false) (h2 : s.requests = []) : step s = .next s.idle := by
  simp [step, h1, h2]

theorem step_reset {s : State} (h1 : s.rst = true) (h2 : s.requests = []) : step s = .next s.applyReset := by
  simp [step, h1, h2]

/-- The inversion of `step`: a next state comes from a transaction on the oldest request, an idle step or a reset. -/
theorem step_cases {s t : State} (h : step s = .next t) :
    (∃ r rest i, s.rst = false ∧ s.requests = r :: rest ∧ decode r = .ok i ∧
      t = s.takeRequest.respond (s.takeRequest.answer i)) ∨
    (s.rst = false ∧ s.requests = [] ∧ t = s.idle) ∨
    (s.rst = true ∧ s.requests = [] ∧ t = s.applyReset) := by
  unfold step at h
  split at h
  · cases h
  · rename_i h1 h2
    cases h
    exact .inr (.inr ⟨h1, h2, rfl⟩)
  · rename_i h1 h2
    cases h
    exact .inr (.inl ⟨h1, h2, rfl⟩)
  · rename_i r rest h1 h2
    unfold serve at h
    split at h
    · rename_i i hi
      exact .inl ⟨r, rest, i, h1, h2, hi, exec_cases h⟩
    · cases h

/-! ### Runs of several steps -/

theorem run_zero (s : State) : core.run 0 s = .next s := rfl

/-- A run goes on from the next state of its first step. -/
theorem run_succ {s t : State} (h : step s = .next t) (k : Nat) : core.run (k + 1) s = core.run k t := by
  have h' : core.step s = .next t := h
  simp only [Host.Core.run, h']

end Sys2Proof.Machine
end

