-- ==== Sys2Proof/Laws/Arith.lean ====
section
/-! SUPPORT. What the four shared algorithms answer, each as one case distinction on natural numbers. -/

namespace Sys2Proof.Machine

theorem checkProduct_eq (p : Nat) (f : Nat → Response) :
    checkProduct p f = if 2 ^ 256 ≤ p then .err .multiplicationOverflow else f p := by
  rcases Nat.lt_or_ge p (2 ^ 256) with h | h
  · exact (checkProduct_of_fits h f).trans (if_neg (Nat.not_le.2 h)).symm
  · exact (checkProduct_of_not_fits h f).trans (if_pos h).symm

theorem mulround_eq (carry : RoundCarry) (a b : Word) (d half : Nat) :
    mulround carry a b d half =
      if 2 ^ 256 ≤ a.toNat * b.toNat then .err .multiplicationOverflow
      else if 2 ^ 256 ≤ a.toNat * b.toNat + half ∧ carry = .addOvf then .err .additionOverflow
      else okNat ((a.toNat * b.toNat + half) / d) := by
  rw [mulround, checkProduct_eq, checkRoundingSum_eq]

theorem divround_eq (carry : RoundCarry) (a b : Word) (d : Nat) :
    divround carry a b d =
      if b = 0 then .err .divisionByZero
      else if 2 ^ 256 ≤ a.toNat * d then .err .multiplicationOverflow
      else if 2 ^ 256 ≤ a.toNat * d + b.toNat / 2 ∧ carry = .addOvf then .err .additionOverflow
      else okNat ((a.toNat * d + b.toNat / 2) / b.toNat) := by
  rw [divround, checkDivisor, checkProduct_eq, checkRoundingSum_eq, halfDivisor]

theorem downscale_eq (x : Word) (q h : Nat) :
    downscale x q h =
      if 2 ^ 256 ≤ x.toNat + h then .err .additionOverflow else okNat ((x.toNat + h) / q) := by
  rw [downscale]
  rcases Nat.lt_or_ge (x.toNat + h) (2 ^ 256) with hs | hs
  · exact (checkSum_of_fits hs _).trans (if_neg (Nat.not_le.2 hs)).symm
  · exact (checkSum_of_not_fits hs _).trans (if_pos hs).symm

theorem upscale_eq (x : Word) (q : Nat) :
    upscale x q =
      if 2 ^ 256 ≤ x.toNat * q then .err .multiplicationOverflow else okNat (x.toNat * q) := by
  rw [upscale, checkProduct_eq]

/-- A success of a natural number that fits gives that number. -/
theorem okNat_eq_ok {n : Nat} (h : n < 2 ^ 256) {v : Word} : okNat n = .ok v ↔ v.toNat = n := by
  rw [okNat, Response.ok.injEq]
  constructor
  · rintro rfl
    exact BitVec.toNat_ofNat n 256 ▸ Nat.mod_eq_of_lt h
  · rintro rfl
    exact BitVec.ofNat_toNat 256 v ▸ BitVec.setWidth_eq v

end Sys2Proof.Machine
end

