-- ==== Sys2Proof/Laws/Decode.lean ====
section
/-! SUPPORT. The bits of a request word, and where the decoder accepts a request. -/

namespace Sys2Proof

/-- The opcode test of a request and the decoder agree, whatever the operand fields. -/
theorem decode_eq_error_of_reserved {r : Request} (h : r.wf = false) :
    decode r = .error (.reservedOpcode r.op) := by
  obtain ⟨⟨⟨n, hn⟩⟩, a, b⟩ := r
  interval_cases n <;> first | rfl | exact Bool.noConfusion (show true = false from h)

/-- A request that is well formed decodes. -/
theorem decode_ok_of_wf {r : Request} (h : r.wf = true) : ∃ i, decode r = .ok i := by
  obtain ⟨⟨⟨n, hn⟩⟩, a, b⟩ := r
  interval_cases n <;> first | exact ⟨_, rfl⟩ | exact Bool.noConfusion (show false = true from h)

/-- The bits of `{OP, A, B}`. -/
theorem Request.getLsbD_toWord (r : Request) (i : Nat) :
    r.toWord.getLsbD i =
      if i < 256 then r.b.getLsbD i
      else if i < 512 then r.a.getLsbD (i - 256)
      else r.op.getLsbD (i - 512) := by
  unfold Request.toWord
  rw [BitVec.getLsbD_append, BitVec.getLsbD_append]
  rcases Nat.lt_or_ge i 256 with h | h
  · simp [h]
  rcases Nat.lt_or_ge i 512 with h' | h'
  · simp [show ¬ i < 256 by omega, h', show i - 256 < 256 by omega]
  · simp [show ¬ i < 256 by omega, show ¬ i < 512 by omega, show ¬ i - 256 < 256 by omega, Nat.sub_sub]

end Sys2Proof
end

