-- ==== Sys2Proof/Laws/PerInstr.lean ====
section
/-! SUPPORT. Statements made for every constructor of `Instr`, one lemma each. -/

namespace Sys2Proof.Laws.Assembled

/-- An operation is well formed, its opcode is legal by the bit structure of R42 too, its request carries that opcode,
and the fields its format does not use are assembled as zero (R42, R43, R51). -/
def Statement (i : Instr) : Prop :=
  i.wf = true ∧ legalByStructure i.opcode = true ∧ (encode i).op = i.opcode ∧
    (i.format ≠ .f2 → (encode i).b = 0) ∧ (i.format = .f0 → (encode i).a = 0)

theorem wadmul (a b : Word) : Statement (.wadmul a b) := by
  refine ⟨rfl, by simp only [Instr.opcode]; decide, rfl, ?_, ?_⟩ <;> simp [Instr.format, encode]

theorem waddiv (a b : Word) : Statement (.waddiv a b) := by
  refine ⟨rfl, by simp only [Instr.opcode]; decide, rfl, ?_, ?_⟩ <;> simp [Instr.format, encode]

theorem raymul (a b : Word) : Statement (.raymul a b) := by
  refine ⟨rfl, by simp only [Instr.opcode]; decide, rfl, ?_, ?_⟩ <;> simp [Instr.format, encode]

theorem raydiv (a b : Word) : Statement (.raydiv a b) := by
  refine ⟨rfl, by simp only [Instr.opcode]; decide, rfl, ?_, ?_⟩ <;> simp [Instr.format, encode]

theorem ray2wad (x : Word) : Statement (.ray2wad x) := by
  refine ⟨rfl, by simp only [Instr.opcode]; decide, rfl, ?_, ?_⟩ <;> simp [Instr.format, encode]

theorem wad2ray (x : Word) : Statement (.wad2ray x) := by
  refine ⟨rfl, by simp only [Instr.opcode]; decide, rfl, ?_, ?_⟩ <;> simp [Instr.format, encode]

theorem constWad : Statement .constWad := by
  refine ⟨rfl, by simp only [Instr.opcode]; decide, rfl, ?_, ?_⟩ <;> simp [Instr.format, encode]

theorem constHalfWad : Statement .constHalfWad := by
  refine ⟨rfl, by simp only [Instr.opcode]; decide, rfl, ?_, ?_⟩ <;> simp [Instr.format, encode]

theorem constRay : Statement .constRay := by
  refine ⟨rfl, by simp only [Instr.opcode]; decide, rfl, ?_, ?_⟩ <;> simp [Instr.format, encode]

theorem constHalfRay : Statement .constHalfRay := by
  refine ⟨rfl, by simp only [Instr.opcode]; decide, rfl, ?_, ?_⟩ <;> simp [Instr.format, encode]

theorem constRatio : Statement .constRatio := by
  refine ⟨rfl, by simp only [Instr.opcode]; decide, rfl, ?_, ?_⟩ <;> simp [Instr.format, encode]

end Sys2Proof.Laws.Assembled
end

