-- ==== Sys2Proof/Tests/Slice0.lean ====
section
/-! SUPPORT. The model's own tests: the smoke tests of the checks, decoding of words written out from the spec, the vectors of
95_test_vectors.md for every operation, and a witness for the hypotheses of every statement that has some. Every expected value
is the spec's (95_test_vectors.md), under the name of its vector. -/

namespace Sys2Proof.Tests

open Sys2Proof.Machine

/-- A unit built with `ROUND_CARRY = EXACT`. -/
def exactUnit : State := { State.reset with roundCarry := .exact }

/-- A unit with one request presented. -/
def asked (op : BitVec 4) (a b : Word) : State := State.reset.present ⟨op, a, b⟩

/-- The response the host reads after presenting one request and one step. -/
def ask (s : State) (op : BitVec 4) (a b : Word) : Option Response :=
  match step (s.present ⟨op, a, b⟩) with
  | .next t => t.response
  | _ => none

/-- The state after a step that goes on. -/
def after (s : State) : Option State :=
  match step s with
  | .next t => some t
  | _ => none

/-- A response computed for an operation is one it answers. -/
theorem answers_of {i : Instr} {s : State} {resp : Response} (h : s.answer i = resp) : Answers i s resp :=
  answers_iff.2 h.symm

/-! ### The checks refuse ill-formed terms -/

/-- V-X1 to V-X5, and their nearest accepted inputs. -/
theorem test_request_wf : (∀ op ∈ [0x6#4, 0x7#4, 0xD#4, 0xE#4, 0xF#4], (Request.mk op 0 0).wf = false) ∧
    (∀ op ∈ [0x5#4, 0x8#4, 0xC#4], (Request.mk op 0 0).wf = true) := by decide

/-- The opcode of every operation is legal, by the table and by its bits, and the reserved ones are not. -/
theorem test_legal_by_structure : ∀ op : BitVec 4, legalByStructure op = legalOp op := by decide

/-- `2^256` is no u256 numeral and `2^256-1` is. -/
theorem test_numeral_wf : (Numeral.pow 2 256).wf = false ∧ (Numeral.powPred 2 256).wf = true ∧
    (Numeral.powPred 2 256).value = Numeral.max.value := by decide

/-- A line with a missing operand, or with a name not yet bound, is ill formed. -/
theorem test_line_ill_formed :
    (ScriptLine.mk "v" "WADMUL" [.num .wad]).instr [] = none ∧
    (ScriptLine.mk "v" "WAD2RAY" [.bound "w"]).instr [] = none ∧
    (ScriptLine.mk "v" "WAD2RAY" [.bound "w"]).instr [("w", 7#256)] = some (.wad2ray 7#256) := by decide

/-! ### Decoding: request words written out from 95_test_vectors.md section 4 -/

/-- S1 of section 4. -/
theorem test_decode_word_S1 : decodeWord 0x000000000000000000000000000000000000000000000000022B1C8C1227A000000000000000000000000000000000000000000000000000006F05B59D3B20000#516 =
    .ok (.wadmul 2500000000000000000#256 500000000000000000#256) := by decide +kernel

/-- S2 of section 4. -/
theorem test_decode_word_S2 : decodeWord 0x100000000000000000000000000000000000000000000000022B1C8C1227A000000000000000000000000000000000000000000000000000006F05B59D3B20000#516 =
    .ok (.waddiv 2500000000000000000#256 500000000000000000#256) := by decide +kernel

/-- S3 of section 4. -/
theorem test_decode_word_S3 : decodeWord 0x200000000000000000000000000000000000000000813F3978F894098440000000000000000000000000000000000000000000000019D971E4FE8401E74000000#516 =
    .ok (.raymul 2500000000000000000000000000#256 500000000000000000000000000#256) := by decide +kernel

/-- S4 of section 4. -/
theorem test_decode_word_S4 : decodeWord 0x300000000000000000000000000000000000000000813F3978F894098440000000000000000000000000000000000000000000000019D971E4FE8401E74000000#516 =
    .ok (.raydiv 2500000000000000000000000000#256 500000000000000000000000000#256) := by decide +kernel

/-- S5a with junk in B of section 4. -/
theorem test_decode_word_S5a : decodeWord 0x40000000000000000000000000000000000000000033B2E3C9FD0803CE8000000FFFFFFFFFFFFFFFFFFFFFFFFFFFFFFFFFFFFFFFFFFFFFFFFFFFFFFFFFFFFFFFF#516 =
    .ok (.ray2wad 1000000000000000000000000000#256) := by decide +kernel

/-- S5b of section 4. -/
theorem test_decode_word_S5b : decodeWord 0x50000000000000000000000000000000000000000000000000DE0B6B3A76400000000000000000000000000000000000000000000000000000000000000000000#516 =
    .ok (.wad2ray 1000000000000000000#256) := by decide +kernel

/-- V-K1 of section 4. -/
theorem test_decode_word_K1 : decodeWord 0x800000000000000000000000000000000000000000000000000000000000000000000000000000000000000000000000000000000000000000000000000000000#516 =
    .ok .constWad := by decide +kernel

/-- V-K2 of section 4. -/
theorem test_decode_word_K2 : decodeWord 0x900000000000000000000000000000000000000000000000000000000000000000000000000000000000000000000000000000000000000000000000000000000#516 =
    .ok .constHalfWad := by decide +kernel

/-- V-K3 of section 4. -/
theorem test_decode_word_K3 : decodeWord 0xA00000000000000000000000000000000000000000000000000000000000000000000000000000000000000000000000000000000000000000000000000000000#516 =
    .ok .constRay := by decide +kernel

/-- V-K4 of section 4. -/
theorem test_decode_word_K4 : decodeWord 0xB00000000000000000000000000000000000000000000000000000000000000000000000000000000000000000000000000000000000000000000000000000000#516 =
    .ok .constHalfRay := by decide +kernel

/-- V-K5 with junk operands of section 4. -/
theorem test_decode_word_K5 : decodeWord 0xCFFFFFFFFFFFFFFFFFFFFFFFFFFFFFFFFFFFFFFFFFFFFFFFFFFFFFFFFFFFFFFFFFFFFFFFFFFFFFFFFFFFFFFFFFFFFFFFFFFFFFFFFFFFFFFFFFFFFFFFFFFFFFFFF#516 =
    .ok .constRatio := by decide +kernel

/-- Every row of the opcode table, by its `match` over `OP` and by its `word_match` over the whole request. -/
theorem test_decode_table_rows :
    [0x0, 0x1, 0x2, 0x3, 0x4, 0x5, 0x8, 0x9, 0xA, 0xB, 0xC].map (decodeTableWord 8) =
      [some (.wadmul 0 0), some (.waddiv 0 0), some (.raymul 0 0), some (.raydiv 0 0), some (.ray2wad 0), some (.wad2ray 0),
        some .constWad, some .constHalfWad, some .constRay, some .constHalfRay, some .constRatio] ∧
    [0x6, 0x7, 0xD, 0xE, 0xF].map (decodeTableWord 8) = [none, none, none, none, none] := by decide

theorem test_decode_table_whole_word : decodeTableWord 520 (0x5 <<< 512 ||| 7 <<< 256 ||| 9) = some (.wad2ray 7) ∧
    decodeTableWord 520 (0x1 <<< 512 ||| 7 <<< 256 ||| 9) = some (.waddiv 7 9) := by decide +kernel

/-- The first instruction after reset, placed by `withFetchWord`: `WADDIV 0, 0` answers `DivisionByZero` (V-D4) and `CONST.RAY` its
constant (V-K3). -/
theorem test_placed_runs_first :
    (after (State.reset.withFetchWord 8 0x1)).map State.response = some (some (.err .divisionByZero)) ∧
    (after (State.reset.withFetchWord 8 0xA)).map State.response =
      some (some (.ok 1000000000000000000000000000#256)) := by decide

/-! ### Every operation, by the vectors of 95_test_vectors.md, through a whole step -/

/-- S1, V-M1, V-M5, V-M6, V-M15. -/
theorem test_wadmul_values :
    ask State.reset 0#4 2500000000000000000#256 500000000000000000#256 = some (.ok 1250000000000000000#256) ∧
    ask State.reset 0#4 115792089237316195423570985008687907853269984665640564039457584007913129639935#256 0#256 = some (.ok 0#256) ∧
    ask State.reset 0#4 1#256 500000000000000000#256 = some (.ok 1#256) ∧
    ask State.reset 0#4 1#256 499999999999999999#256 = some (.ok 0#256) ∧
    ask State.reset 0#4 500000000000000000#256 2500000000000000000#256 = some (.ok 1250000000000000000#256) :=
  by decide

/-- V-M16, V-M23, and the band under both settings: V-M22, V-M24. -/
theorem test_wadmul_boundaries :
    ask State.reset 0#4 340282366920938463463374607431768211456#256 340282366920938463463374607431768211456#256 = some (.err .multiplicationOverflow) ∧
    ask State.reset 0#4 115792089237316195423570985008687907853269984665640564039457084007913129639935#256 1#256 = some (.ok 115792089237316195423570985008687907853269984665640564039457#256) ∧
    ask State.reset 0#4 115792089237316195423570985008687907853269984665640564039457584007913129639935#256 1#256 = some (.err .additionOverflow) ∧
    ask exactUnit 0#4 115792089237316195423570985008687907853269984665640564039457584007913129639935#256 1#256 = some (.ok 115792089237316195423570985008687907853269984665640564039458#256) ∧
    ask State.reset 0#4 115792089237316195423570985008687907853269984665640564039457084007913129639936#256 1#256 = some (.err .additionOverflow) ∧
    ask exactUnit 0#4 115792089237316195423570985008687907853269984665640564039457084007913129639936#256 1#256 = some (.ok 115792089237316195423570985008687907853269984665640564039457#256) :=
  by decide

/-- S2, V-D2, V-D8, V-D9, V-D13. -/
theorem test_waddiv_values :
    ask State.reset 1#4 2500000000000000000#256 500000000000000000#256 = some (.ok 5000000000000000000#256) ∧
    ask State.reset 1#4 0#256 115792089237316195423570985008687907853269984665640564039457584007913129639935#256 = some (.ok 0#256) ∧
    ask State.reset 1#4 1#256 2000000000000000000#256 = some (.ok 1#256) ∧
    ask State.reset 1#4 1#256 2000000000000000001#256 = some (.ok 0#256) ∧
    ask State.reset 1#4 2#256 3#256 = some (.ok 666666666666666667#256) :=
  by decide

/-- V-D5, V-D23, V-D24, V-D28, and the edge of the band under both settings: V-D29. -/
theorem test_waddiv_boundaries :
    ask State.reset 1#4 115792089237316195423570985008687907853269984665640564039457584007913129639935#256 0#256 = some (.err .divisionByZero) ∧
    ask State.reset 1#4 115792089237316195423570985008687907853269984665640564039457#256 1#256 = some (.ok 115792089237316195423570985008687907853269984665640564039457000000000000000000#256) ∧
    ask State.reset 1#4 115792089237316195423570985008687907853269984665640564039458#256 1#256 = some (.err .multiplicationOverflow) ∧
    ask State.reset 1#4 115792089237316195423570985008687907853269984665640564039457#256 1168015826259279871#256 = some (.ok 99135719426127278243978613930191752647271976290834930454833#256) ∧
    ask State.reset 1#4 115792089237316195423570985008687907853269984665640564039457#256 1168015826259279872#256 = some (.err .additionOverflow) ∧
    ask exactUnit 1#4 115792089237316195423570985008687907853269984665640564039457#256 1168015826259279872#256 = some (.ok 99135719426127278159103291869169596938880048038866344402243#256) :=
  by decide

/-- S3, V-M3, V-M9, V-M10. -/
theorem test_raymul_values :
    ask State.reset 2#4 2500000000000000000000000000#256 500000000000000000000000000#256 = some (.ok 1250000000000000000000000000#256) ∧
    ask State.reset 2#4 115792089237316195423570985008687907853269984665640564039457584007913129639935#256 0#256 = some (.ok 0#256) ∧
    ask State.reset 2#4 1#256 500000000000000000000000000#256 = some (.ok 1#256) ∧
    ask State.reset 2#4 1#256 499999999999999999999999999#256 = some (.ok 0#256) :=
  by decide

/-- V-M18, V-M26, and the edge of the band under both settings: V-M27. -/
theorem test_raymul_boundaries :
    ask State.reset 2#4 340282366920938463463374607431768211456#256 340282366920938463463374607431768211456#256 = some (.err .multiplicationOverflow) ∧
    ask State.reset 2#4 115792089237316195423570985008687907853269984665640064039457584007913129639935#256 1#256 = some (.ok 115792089237316195423570985008687907853269984665640#256) ∧
    ask State.reset 2#4 115792089237316195423570985008687907853269984665640064039457584007913129639936#256 1#256 = some (.err .additionOverflow) ∧
    ask exactUnit 2#4 115792089237316195423570985008687907853269984665640064039457584007913129639936#256 1#256 = some (.ok 115792089237316195423570985008687907853269984665640#256) :=
  by decide

/-- S4, V-D3, V-D19, V-D21, V-D22. -/
theorem test_raydiv_values :
    ask State.reset 3#4 2500000000000000000000000000#256 500000000000000000000000000#256 = some (.ok 5000000000000000000000000000#256) ∧
    ask State.reset 3#4 0#256 115792089237316195423570985008687907853269984665640564039457584007913129639935#256 = some (.ok 0#256) ∧
    ask State.reset 3#4 1#256 3#256 = some (.ok 333333333333333333333333333#256) ∧
    ask State.reset 3#4 1#256 2000000000000000000000000000#256 = some (.ok 1#256) ∧
    ask State.reset 3#4 1#256 2000000000000000000000000001#256 = some (.ok 0#256) :=
  by decide

/-- V-D6, V-D30, V-D31, V-D33, and the edge of the band under both settings: V-D34. -/
theorem test_raydiv_boundaries :
    ask State.reset 3#4 115792089237316195423570985008687907853269984665640564039457584007913129639935#256 0#256 = some (.err .divisionByZero) ∧
    ask State.reset 3#4 115792089237316195423570985008687907853269984665640#256 1#256 = some (.ok 115792089237316195423570985008687907853269984665640000000000000000000000000000#256) ∧
    ask State.reset 3#4 115792089237316195423570985008687907853269984665641#256 1#256 = some (.err .multiplicationOverflow) ∧
    ask State.reset 3#4 115792089237316195423570985008687907853269984665640#256 1128078915168015826259279871#256 = some (.ok 102645380283586053058642869061413194230709226210788#256) ∧
    ask State.reset 3#4 115792089237316195423570985008687907853269984665640#256 1128078915168015826259279872#256 = some (.err .additionOverflow) ∧
    ask exactUnit 3#4 115792089237316195423570985008687907853269984665640#256 1128078915168015826259279872#256 = some (.ok 102645380283586053058642868970421882449743909057114#256) :=
  by decide

/-- S5a, V-C3, V-C4, V-C6. -/
theorem test_ray2wad_values :
    ask State.reset 4#4 1000000000000000000000000000#256 0#256 = some (.ok 1000000000000000000#256) ∧
    ask State.reset 4#4 499999999#256 0#256 = some (.ok 0#256) ∧
    ask State.reset 4#4 500000000#256 0#256 = some (.ok 1#256) ∧
    ask State.reset 4#4 1500000000#256 0#256 = some (.ok 2#256) :=
  by decide

/-- V-C8, and V-C9 under both settings: `ROUND_CARRY` plays no part. -/
theorem test_ray2wad_boundaries :
    ask State.reset 4#4 115792089237316195423570985008687907853269984665640564039457584007912629639935#256 0#256 = some (.ok 115792089237316195423570985008687907853269984665640564039457584007913#256) ∧
    ask State.reset 4#4 115792089237316195423570985008687907853269984665640564039457584007912629639936#256 0#256 = some (.err .additionOverflow) ∧
    ask exactUnit 4#4 115792089237316195423570985008687907853269984665640564039457584007912629639936#256 0#256 = some (.err .additionOverflow) :=
  by decide

/-- S5b, V-C13, V-C15. -/
theorem test_wad2ray_values :
    ask State.reset 5#4 1000000000000000000#256 0#256 = some (.ok 1000000000000000000000000000#256) ∧
    ask State.reset 5#4 0#256 0#256 = some (.ok 0#256) ∧
    ask State.reset 5#4 123456789#256 0#256 = some (.ok 123456789000000000#256) :=
  by decide

/-- V-C16, V-C17. -/
theorem test_wad2ray_boundaries :
    ask State.reset 5#4 115792089237316195423570985008687907853269984665640564039457584007913#256 0#256 = some (.ok 115792089237316195423570985008687907853269984665640564039457584007913000000000#256) ∧
    ask State.reset 5#4 115792089237316195423570985008687907853269984665640564039457584007914#256 0#256 = some (.err .multiplicationOverflow) :=
  by decide

/-- V-K1 to V-K5. -/
theorem test_constants :
    ask State.reset 8#4 0#256 0#256 = some (.ok 1000000000000000000#256) ∧
    ask State.reset 9#4 0#256 0#256 = some (.ok 500000000000000000#256) ∧
    ask State.reset 10#4 0#256 0#256 = some (.ok 1000000000000000000000000000#256) ∧
    ask State.reset 11#4 0#256 0#256 = some (.ok 500000000000000000000000000#256) ∧
    ask State.reset 12#4 0#256 0#256 = some (.ok 1000000000#256) :=
  by decide

/-- V-K5 with junk operands, and S5a with junk in `B`. -/
theorem test_unused_fields :
    ask State.reset 0xC#4 (BitVec.allOnes 256) (BitVec.allOnes 256) = some (.ok 1000000000#256) ∧
    ask State.reset 0x4#4 1000000000000000000000000000#256 (BitVec.allOnes 256) = some (.ok 1000000000000000000#256) := by
  decide

/-- The response words of S6a and S7: `ERR` is 2 and 1 (section 4). -/
theorem test_error_codes :
    (after (asked 0x1#4 1 0)).map State.rspErr = some 2#2 ∧
    (after (asked 0x0#4 (BitVec.allOnes 256) 2)).map State.rspErr = some 1#2 := by decide

/-- PRG6a: the script stops at `t1` with `AdditionOverflow`, and binds nothing. -/
theorem test_script_stops_at_error :
    ∃ t, runScript 1 [] State.reset
        [⟨"v1", "WADMUL", [.num .max, .num (.lit 1)]⟩, ⟨"v2", "WADDIV", [.bound "v1", .num (.lit 1)]⟩] =
      .stopped 1 .additionOverflow [] t := ⟨_, rfl⟩

/-! ### A witness for the hypotheses of every statement that has some

`RomIntact State.reset` is the one hypothesis of the statements about results; each is met together with its other hypotheses below,
at the values where its clauses meet. -/

theorem witness_RomIntact : RomIntact State.reset ∧ RomIntact exactUnit := ⟨rfl, rfl⟩

theorem witness_ReservedOpcodesAreRefused : ∀ op ∈ [0x6#4, 0x7#4, 0xD#4, 0xE#4, 0xF#4],
    (asked op 1 2).rst = false ∧ (asked op 1 2).requests = [⟨op, 1, 2⟩] ∧
    (op = 0x6#4 ∨ op = 0x7#4 ∨ op = 0xD#4 ∨ op = 0xE#4 ∨ op = 0xF#4) := by decide

theorem witness_UnusedFieldsAreIgnored :
    (∀ op ∈ [0x4#4, 0x5#4], op = 0x4#4 ∨ op = 0x5#4) ∧
    (∀ op ∈ [0x8#4, 0x9#4, 0xA#4, 0xB#4, 0xC#4], op = 0x8#4 ∨ op = 0x9#4 ∨ op = 0xA#4 ∨ op = 0xB#4 ∨ op = 0xC#4) := by
  decide

theorem witness_StepRunsDecodedInstruction :
    (asked 0x5#4 3 0).rst = false ∧ (asked 0x5#4 3 0).requests = [⟨0x5#4, 3, 0⟩] ∧
    decode ⟨0x5#4, 3, 0⟩ = .ok (.wad2ray 3) := by decide

theorem witness_PlacedInstructionRunsNext : decodeTableWord 8 0xC = some .constRatio := by decide

theorem witness_StepWithoutRequestIdles : State.reset.rst = false ∧ State.reset.requests = [] := by decide

theorem witness_ResetHasNoArchitecturalEffect :
    ({ State.reset with rst := true } : State).rst = true ∧ ({ State.reset with rst := true } : State).requests = [] := by decide

theorem witness_ResetWhileOwedHasNoMove :
    ({ asked 0x8#4 0 0 with rst := true } : State).rst = true ∧ ({ asked 0x8#4 0 0 with rst := true } : State).requests ≠ [] := by
  decide

/-- A transaction, an idle step and a reset, each from a state that meets the invariant. -/
theorem witness_StepKeepsInvariant :
    (RomIntact (asked 0x8#4 0 0) ∧ HostObeys (asked 0x8#4 0 0) ∧ ∃ t, step (asked 0x8#4 0 0) = .next t) ∧
    (RomIntact State.reset ∧ HostObeys State.reset ∧ ∃ t, step State.reset = .next t) ∧
    (RomIntact { State.reset with rst := true } ∧ HostObeys { State.reset with rst := true } ∧
      ∃ t, step { State.reset with rst := true } = .next t) :=
  ⟨⟨rfl, by decide, _, rfl⟩, ⟨rfl, by decide, _, rfl⟩, ⟨rfl, by decide, _, rfl⟩⟩

theorem witness_LegalRequestIsAnswered : ∀ op ∈ [0x0#4, 0x5#4, 0x8#4, 0xC#4],
    (asked op 1 2).rst = false ∧ (asked op 1 2).requests = [⟨op, 1, 2⟩] ∧
    (op ≠ 0x6#4 ∧ op ≠ 0x7#4 ∧ op ≠ 0xD#4 ∧ op ≠ 0xE#4 ∧ op ≠ 0xF#4) := by decide

/-- A failing request in flight before, and a reserved one after, the request asked about. -/
def busyUnit : State := ((asked 0x1#4 1 0).present ⟨0x9#4, 0, 0⟩).present ⟨0x6#4, 0, 0⟩

theorem witness_ResponsesComeInOrderAndAlone :
    busyUnit.rst = false ∧ busyUnit.requests = [⟨0x1#4, 1, 0⟩] ++ ⟨0x9#4, 0, 0⟩ :: [⟨0x6#4, 0, 0⟩] ∧
    (∀ q ∈ [Request.mk 0x1#4 1 0], q.wf = true) ∧ decode ⟨0x9#4, 0, 0⟩ = .ok .constHalfWad ∧
    Answers .constHalfWad busyUnit (.ok 500000000000000000#256) :=
  ⟨rfl, rfl, by decide, rfl, answers_of (by decide)⟩

theorem witness_PresentedRequestIsAnsweredInTurn :
    (asked 0x1#4 1 0).rst = false ∧ (∀ q ∈ (asked 0x1#4 1 0).requests, q.wf = true) ∧
    decode ⟨0xC#4, 0, 0⟩ = .ok .constRatio ∧ Answers .constRatio (asked 0x1#4 1 0) (.ok 1000000000#256) :=
  ⟨rfl, by decide, rfl, answers_of (by decide)⟩

theorem witness_ResponseIsFunctionOfRequest :
    Answers .constWad State.reset (.ok 1000000000000000000#256) ∧
    (asked 0x6#4 0 0).rom = State.reset.rom ∧ (asked 0x6#4 0 0).roundCarry = State.reset.roundCarry :=
  ⟨answers_of (by decide), rfl, rfl⟩

/-- One operation that succeeds and one that fails: for `FrameOfEveryOperation`, `OperationLeavesNothingBehind` and
`ResponseWordCarriesOutcome`. -/
theorem witness_FrameOfEveryOperation :
    exec .constRay State.reset = .next (State.reset.returnOk 1000000000000000000000000000#256) ∧
    exec (.waddiv 1 0) State.reset = .next (State.reset.raise .divisionByZero) := ⟨rfl, rfl⟩

theorem witness_OperationLeavesNothingBehind :
    ∃ t, exec (.waddiv 1 0) State.reset = .next t := ⟨_, rfl⟩

theorem witness_ResponseWordCarriesOutcome :
    ∃ t, exec (.raydiv 1 0) State.reset = .next t := ⟨_, rfl⟩

/-- S6a, S7 and S10: each error kind. -/
theorem witness_ErrorResultIsFreeValue :
    Answers (.waddiv 1 0) State.reset (.err .divisionByZero) ∧
    Answers (.wadmul (BitVec.allOnes 256) 2) State.reset (.err .multiplicationOverflow) ∧
    Answers (.ray2wad (BitVec.allOnes 256)) State.reset (.err .additionOverflow) :=
  ⟨answers_of (by decide), answers_of (by decide), answers_of (by decide)⟩

/-- The ROM of a unit after reset and of a unit in use. -/
theorem witness_RomSpaceHoldsFiveWords :
    RomIntact State.reset ∧
    RomIntact busyUnit :=
  ⟨rfl, rfl⟩

/-- V-K1, V-K5. -/
theorem witness_ConstantReadsAnswerTheRomWords :
    RomIntact State.reset ∧
    Answers .constWad State.reset (.ok 1000000000000000000#256) ∧
    Answers .constRatio State.reset (.ok 1000000000#256) :=
  ⟨rfl, answers_of (by decide), answers_of (by decide)⟩

/-- S5a, S5b. -/
theorem witness_ConstantRelationsShowThroughUnit :
    RomIntact State.reset ∧
    Answers (.ray2wad 1000000000000000000000000000#256) State.reset (.ok 1000000000000000000#256) ∧
    Answers (.wad2ray 1000000000000000000#256) State.reset (.ok 1000000000000000000000000000#256) :=
  ⟨rfl, answers_of (by decide), answers_of (by decide)⟩

/-- Each outcome, at its boundary: V-M16, V-M24, V-M24 (`EXACT`), V-M23. -/
theorem witness_WadmulResult :
    RomIntact State.reset ∧
    RomIntact exactUnit ∧
    Answers (.wadmul 340282366920938463463374607431768211456#256 340282366920938463463374607431768211456#256) State.reset (.err .multiplicationOverflow) ∧
    Answers (.wadmul 115792089237316195423570985008687907853269984665640564039457084007913129639936#256 1#256) State.reset (.err .additionOverflow) ∧
    Answers (.wadmul 115792089237316195423570985008687907853269984665640564039457084007913129639936#256 1#256) exactUnit (.ok 115792089237316195423570985008687907853269984665640564039457#256) ∧
    Answers (.wadmul 115792089237316195423570985008687907853269984665640564039457084007913129639935#256 1#256) State.reset (.ok 115792089237316195423570985008687907853269984665640564039457#256) :=
  ⟨rfl, rfl, answers_of (by decide), answers_of (by decide), answers_of (by decide), answers_of (by decide)⟩

/-- Each outcome, at its boundary: V-M18, V-M27, V-M27 (`EXACT`), V-M26. -/
theorem witness_RaymulResult :
    RomIntact State.reset ∧
    RomIntact exactUnit ∧
    Answers (.raymul 340282366920938463463374607431768211456#256 340282366920938463463374607431768211456#256) State.reset (.err .multiplicationOverflow) ∧
    Answers (.raymul 115792089237316195423570985008687907853269984665640064039457584007913129639936#256 1#256) State.reset (.err .additionOverflow) ∧
    Answers (.raymul 115792089237316195423570985008687907853269984665640064039457584007913129639936#256 1#256) exactUnit (.ok 115792089237316195423570985008687907853269984665640#256) ∧
    Answers (.raymul 115792089237316195423570985008687907853269984665640064039457584007913129639935#256 1#256) State.reset (.ok 115792089237316195423570985008687907853269984665640#256) :=
  ⟨rfl, rfl, answers_of (by decide), answers_of (by decide), answers_of (by decide), answers_of (by decide)⟩

/-- Each outcome, at its boundary: V-M1, V-M2, V-M3, V-M4. -/
theorem witness_ZeroAbsorbsInMultiply :
    RomIntact State.reset ∧
    Answers (.wadmul 115792089237316195423570985008687907853269984665640564039457584007913129639935#256 0#256) State.reset (.ok 0#256) ∧
    Answers (.wadmul 0#256 115792089237316195423570985008687907853269984665640564039457584007913129639935#256) State.reset (.ok 0#256) ∧
    Answers (.raymul 115792089237316195423570985008687907853269984665640564039457584007913129639935#256 0#256) State.reset (.ok 0#256) ∧
    Answers (.raymul 0#256 0#256) State.reset (.ok 0#256) :=
  ⟨rfl, answers_of (by decide), answers_of (by decide), answers_of (by decide), answers_of (by decide)⟩

/-- V-M5 and V-M6, V-M9 and V-M10: a remainder of exactly the half, and one below it. -/
theorem witness_MultiplyRoundsHalfUp :
    RomIntact State.reset ∧
    Answers (.wadmul 1#256 500000000000000000#256) State.reset (.ok 1#256) ∧ 1 * 500000000000000000 = 0 * 10 ^ 18 + 500000000000000000 ∧
    Answers (.wadmul 1#256 499999999999999999#256) State.reset (.ok 0#256) ∧ 1 * 499999999999999999 = 0 * 10 ^ 18 + 499999999999999999 ∧
    Answers (.raymul 1#256 500000000000000000000000000#256) State.reset (.ok 1#256) ∧ 1 * 500000000000000000000000000 = 0 * 10 ^ 27 + 500000000000000000000000000 ∧
    Answers (.raymul 1#256 499999999999999999999999999#256) State.reset (.ok 0#256) :=
  ⟨rfl, answers_of (by decide), rfl, answers_of (by decide), rfl, answers_of (by decide), rfl, answers_of (by decide)⟩

/-- Each outcome, at its boundary: V-M22 (`EXACT`), V-M23, V-M25 (`EXACT`), V-M26. -/
theorem witness_MultiplyResultBounds :
    RomIntact State.reset ∧
    RomIntact exactUnit ∧
    Answers (.wadmul 115792089237316195423570985008687907853269984665640564039457584007913129639935#256 1#256) exactUnit (.ok 115792089237316195423570985008687907853269984665640564039458#256) ∧
    Answers (.wadmul 115792089237316195423570985008687907853269984665640564039457084007913129639935#256 1#256) State.reset (.ok 115792089237316195423570985008687907853269984665640564039457#256) ∧
    Answers (.raymul 115792089237316195423570985008687907853269984665640564039457584007913129639935#256 1#256) exactUnit (.ok 115792089237316195423570985008687907853269984665641#256) ∧
    Answers (.raymul 115792089237316195423570985008687907853269984665640064039457584007913129639935#256 1#256) State.reset (.ok 115792089237316195423570985008687907853269984665640#256) :=
  ⟨rfl, rfl, answers_of (by decide), answers_of (by decide), answers_of (by decide), answers_of (by decide)⟩

/-- Each outcome, at its boundary: V-M20, V-M17, V-M18, V-M19. -/
theorem witness_MultiplyBoundaryAndCommutes :
    RomIntact State.reset ∧
    Answers (.wadmul 57896044618658097711785492504343953926634992332820282019728792003956564819968#256 2#256) State.reset (.err .multiplicationOverflow) ∧
    Answers (.wadmul 340282366920938463463374607431768211456#256 340282366920938463463374607431768211455#256) State.reset (.ok 115792089237316195423570985008687907852929702298719625575994#256) ∧
    Answers (.raymul 340282366920938463463374607431768211456#256 340282366920938463463374607431768211456#256) State.reset (.err .multiplicationOverflow) ∧
    Answers (.raymul 340282366920938463463374607431768211456#256 340282366920938463463374607431768211455#256) State.reset (.ok 115792089237316195423570985008687907852929702298720#256) :=
  ⟨rfl, answers_of (by decide), answers_of (by decide), answers_of (by decide), answers_of (by decide)⟩

/-- Inside the band at its lower edge and just below it: V-M24, V-M23, V-M27, V-M26. -/
theorem witness_MultiplyBandDependsOnRoundCarry :
    RomIntact State.reset ∧
    RomIntact exactUnit ∧
    State.reset.roundCarry = .addOvf ∧
    exactUnit.roundCarry = .exact ∧
    Answers (.wadmul 115792089237316195423570985008687907853269984665640564039457084007913129639936#256 1#256) State.reset (.err .additionOverflow) ∧
    Answers (.wadmul 115792089237316195423570985008687907853269984665640564039457084007913129639936#256 1#256) exactUnit (.ok 115792089237316195423570985008687907853269984665640564039457#256) ∧
    Answers (.wadmul 115792089237316195423570985008687907853269984665640564039457084007913129639935#256 1#256) State.reset (.ok 115792089237316195423570985008687907853269984665640564039457#256) ∧
    Answers (.wadmul 115792089237316195423570985008687907853269984665640564039457084007913129639935#256 1#256) exactUnit (.ok 115792089237316195423570985008687907853269984665640564039457#256) ∧
    Answers (.raymul 115792089237316195423570985008687907853269984665640064039457584007913129639936#256 1#256) State.reset (.err .additionOverflow) ∧
    Answers (.raymul 115792089237316195423570985008687907853269984665640064039457584007913129639936#256 1#256) exactUnit (.ok 115792089237316195423570985008687907853269984665640#256) ∧
    Answers (.raymul 115792089237316195423570985008687907853269984665640064039457584007913129639935#256 1#256) State.reset (.ok 115792089237316195423570985008687907853269984665640#256) ∧
    Answers (.raymul 115792089237316195423570985008687907853269984665640064039457584007913129639935#256 1#256) exactUnit (.ok 115792089237316195423570985008687907853269984665640#256) :=
  ⟨rfl, rfl, rfl, rfl, answers_of (by decide), answers_of (by decide), answers_of (by decide), answers_of (by decide), answers_of (by decide), answers_of (by decide), answers_of (by decide), answers_of (by decide)⟩

/-- Each outcome, at its boundary: V-M28, V-M29, V-M30, V-M31. -/
theorem witness_MultiplyByOneIsIdentity :
    RomIntact State.reset ∧
    Answers (.wadmul 115792089237316195423570985008687907853269984665640564039457#256 1000000000000000000#256) State.reset (.ok 115792089237316195423570985008687907853269984665640564039457#256) ∧
    Answers (.wadmul 115792089237316195423570985008687907853269984665640564039458#256 1000000000000000000#256) State.reset (.err .multiplicationOverflow) ∧
    Answers (.raymul 115792089237316195423570985008687907853269984665640#256 1000000000000000000000000000#256) State.reset (.ok 115792089237316195423570985008687907853269984665640#256) ∧
    Answers (.raymul 115792089237316195423570985008687907853269984665641#256 1000000000000000000000000000#256) State.reset (.err .multiplicationOverflow) :=
  ⟨rfl, answers_of (by decide), answers_of (by decide), answers_of (by decide), answers_of (by decide)⟩

/-- Each outcome, at its boundary: V-D5, V-D24, V-D29, V-D29 (`EXACT`), V-D28. -/
theorem witness_WaddivResult :
    RomIntact State.reset ∧
    RomIntact exactUnit ∧
    Answers (.waddiv 115792089237316195423570985008687907853269984665640564039457584007913129639935#256 0#256) State.reset (.err .divisionByZero) ∧
    Answers (.waddiv 115792089237316195423570985008687907853269984665640564039458#256 1#256) State.reset (.err .multiplicationOverflow) ∧
    Answers (.waddiv 115792089237316195423570985008687907853269984665640564039457#256 1168015826259279872#256) State.reset (.err .additionOverflow) ∧
    Answers (.waddiv 115792089237316195423570985008687907853269984665640564039457#256 1168015826259279872#256) exactUnit (.ok 99135719426127278159103291869169596938880048038866344402243#256) ∧
    Answers (.waddiv 115792089237316195423570985008687907853269984665640564039457#256 1168015826259279871#256) State.reset (.ok 99135719426127278243978613930191752647271976290834930454833#256) :=
  ⟨rfl, rfl, answers_of (by decide), answers_of (by decide), answers_of (by decide), answers_of (by decide), answers_of (by decide)⟩

/-- Each outcome, at its boundary: V-D6, V-D31, V-D34, V-D34 (`EXACT`), V-D33. -/
theorem witness_RaydivResult :
    RomIntact State.reset ∧
    RomIntact exactUnit ∧
    Answers (.raydiv 115792089237316195423570985008687907853269984665640564039457584007913129639935#256 0#256) State.reset (.err .divisionByZero) ∧
    Answers (.raydiv 115792089237316195423570985008687907853269984665641#256 1#256) State.reset (.err .multiplicationOverflow) ∧
    Answers (.raydiv 115792089237316195423570985008687907853269984665640#256 1128078915168015826259279872#256) State.reset (.err .additionOverflow) ∧
    Answers (.raydiv 115792089237316195423570985008687907853269984665640#256 1128078915168015826259279872#256) exactUnit (.ok 102645380283586053058642868970421882449743909057114#256) ∧
    Answers (.raydiv 115792089237316195423570985008687907853269984665640#256 1128078915168015826259279871#256) State.reset (.ok 102645380283586053058642869061413194230709226210788#256) :=
  ⟨rfl, rfl, answers_of (by decide), answers_of (by decide), answers_of (by decide), answers_of (by decide), answers_of (by decide)⟩

/-- Each outcome, at its boundary: V-D2, V-D4, V-D3, V-D7. -/
theorem witness_ZeroNumeratorDividesToZero :
    RomIntact State.reset ∧
    Answers (.waddiv 0#256 115792089237316195423570985008687907853269984665640564039457584007913129639935#256) State.reset (.ok 0#256) ∧
    Answers (.waddiv 0#256 0#256) State.reset (.err .divisionByZero) ∧
    Answers (.raydiv 0#256 115792089237316195423570985008687907853269984665640564039457584007913129639935#256) State.reset (.ok 0#256) ∧
    Answers (.raydiv 0#256 0#256) State.reset (.err .divisionByZero) :=
  ⟨rfl, answers_of (by decide), answers_of (by decide), answers_of (by decide), answers_of (by decide)⟩

/-- V-D8 (even, exact half), V-D9 and V-D10 (odd, just below and just above), V-D21 and V-D22. -/
theorem witness_DivideRoundsHalfUp :
    RomIntact State.reset ∧
    Answers (.waddiv 1#256 2000000000000000000#256) State.reset (.ok 1#256) ∧ 1 * 10 ^ 18 = 0 * 2000000000000000000 + 10 ^ 18 ∧ 2000000000000000000 = 2 * 10 ^ 18 ∧
    Answers (.waddiv 1#256 2000000000000000001#256) State.reset (.ok 0#256) ∧ 1 * 10 ^ 18 = 0 * 2000000000000000001 + 10 ^ 18 ∧ 2000000000000000001 = 2 * 10 ^ 18 + 1 ∧
    Answers (.waddiv 1#256 1999999999999999999#256) State.reset (.ok 1#256) ∧ 1 * 10 ^ 18 = 0 * 1999999999999999999 + 10 ^ 18 ∧
      1999999999999999999 = 2 * 999999999999999999 + 1 ∧
    Answers (.raydiv 1#256 2000000000000000000000000000#256) State.reset (.ok 1#256) ∧
    Answers (.raydiv 1#256 2000000000000000000000000001#256) State.reset (.ok 0#256) :=
  ⟨rfl, answers_of (by decide), rfl, rfl, answers_of (by decide), rfl, rfl, answers_of (by decide), rfl, rfl,
    answers_of (by decide), answers_of (by decide)⟩

/-- Each outcome, at its boundary: V-D23, V-D30. -/
theorem witness_DivideResultBounds :
    RomIntact State.reset ∧
    Answers (.waddiv 115792089237316195423570985008687907853269984665640564039457#256 1#256) State.reset (.ok 115792089237316195423570985008687907853269984665640564039457000000000000000000#256) ∧
    Answers (.raydiv 115792089237316195423570985008687907853269984665640#256 1#256) State.reset (.ok 115792089237316195423570985008687907853269984665640000000000000000000000000000#256) :=
  ⟨rfl, answers_of (by decide), answers_of (by decide)⟩

/-- V-D23, V-D24, V-D30, V-D31: each side of the boundary, over a divisor that is not zero. -/
theorem witness_DivideOverflowBoundary :
    RomIntact State.reset ∧
    (1#256 : Word) ≠ 0 ∧
    Answers (.waddiv 115792089237316195423570985008687907853269984665640564039457#256 1#256) State.reset (.ok 115792089237316195423570985008687907853269984665640564039457000000000000000000#256) ∧
    Answers (.waddiv 115792089237316195423570985008687907853269984665640564039458#256 1#256) State.reset (.err .multiplicationOverflow) ∧
    Answers (.raydiv 115792089237316195423570985008687907853269984665640#256 1#256) State.reset (.ok 115792089237316195423570985008687907853269984665640000000000000000000000000000#256) ∧
    Answers (.raydiv 115792089237316195423570985008687907853269984665641#256 1#256) State.reset (.err .multiplicationOverflow) :=
  ⟨rfl, by decide, answers_of (by decide), answers_of (by decide), answers_of (by decide), answers_of (by decide)⟩

/-- Inside the band at its lower edge and just below it: V-D29, V-D28, V-D34, V-D33. -/
theorem witness_DivideBandDependsOnRoundCarry :
    RomIntact State.reset ∧
    RomIntact exactUnit ∧
    State.reset.roundCarry = .addOvf ∧
    exactUnit.roundCarry = .exact ∧
    Answers (.waddiv 115792089237316195423570985008687907853269984665640564039457#256 1168015826259279872#256) State.reset (.err .additionOverflow) ∧
    Answers (.waddiv 115792089237316195423570985008687907853269984665640564039457#256 1168015826259279872#256) exactUnit (.ok 99135719426127278159103291869169596938880048038866344402243#256) ∧
    Answers (.waddiv 115792089237316195423570985008687907853269984665640564039457#256 1168015826259279871#256) State.reset (.ok 99135719426127278243978613930191752647271976290834930454833#256) ∧
    Answers (.waddiv 115792089237316195423570985008687907853269984665640564039457#256 1168015826259279871#256) exactUnit (.ok 99135719426127278243978613930191752647271976290834930454833#256) ∧
    Answers (.raydiv 115792089237316195423570985008687907853269984665640#256 1128078915168015826259279872#256) State.reset (.err .additionOverflow) ∧
    Answers (.raydiv 115792089237316195423570985008687907853269984665640#256 1128078915168015826259279872#256) exactUnit (.ok 102645380283586053058642868970421882449743909057114#256) ∧
    Answers (.raydiv 115792089237316195423570985008687907853269984665640#256 1128078915168015826259279871#256) State.reset (.ok 102645380283586053058642869061413194230709226210788#256) ∧
    Answers (.raydiv 115792089237316195423570985008687907853269984665640#256 1128078915168015826259279871#256) exactUnit (.ok 102645380283586053058642869061413194230709226210788#256) :=
  ⟨rfl, rfl, rfl, rfl, answers_of (by decide), answers_of (by decide), answers_of (by decide), answers_of (by decide), answers_of (by decide), answers_of (by decide), answers_of (by decide), answers_of (by decide)⟩

/-- V-D18 and V-D25, and the hypotheses on a number over itself at 10^18 and at its largest value. -/
theorem witness_DivideByOneAndBySelf :
    RomIntact State.reset ∧
    exactUnit.roundCarry = .exact ∧
    Answers (.waddiv 1000000000000000000#256 1000000000000000000#256) State.reset (.ok 1000000000000000000#256) ∧
    Answers (.waddiv 115792089237316195423570985008687907853269984665640564039457#256 1000000000000000000#256) State.reset (.ok 115792089237316195423570985008687907853269984665640564039457#256) ∧
    1 ≤ (10 ^ 18 : Nat) ∧ 10 ^ 18 ≤ (2 ^ 256 - 1) / 10 ^ 18 ∧ 10 ^ 18 * 10 ^ 18 + 10 ^ 18 / 2 < 2 ^ 256 ∧
    1 ≤ (10 ^ 27 : Nat) ∧ 10 ^ 27 ≤ (2 ^ 256 - 1) / 10 ^ 27 ∧ 10 ^ 27 * 10 ^ 27 + 10 ^ 27 / 2 < 2 ^ 256 :=
  ⟨rfl, rfl, answers_of (by decide), answers_of (by decide), by norm_num, by norm_num⟩

/-- V-D20 (a divisor below one: the source's property fails), a divisor of one (V-M11, then V-D17's kind), and the same in RAY (V-M12). -/
theorem witness_DivideUndoesMultiply :
    RomIntact State.reset ∧
    Answers (.wadmul 400000000000000000#256 1#256) State.reset (.ok 0#256) ∧
    Answers (.waddiv 0#256 1#256) State.reset (.ok 0#256) ∧
    Answers (.wadmul 123456789#256 1000000000000000000#256) State.reset (.ok 123456789#256) ∧
    Answers (.waddiv 123456789#256 1000000000000000000#256) State.reset (.ok 123456789#256) ∧
    Answers (.raymul 123456789#256 1000000000000000000000000000#256) State.reset (.ok 123456789#256) ∧
    Answers (.raydiv 123456789#256 1000000000000000000000000000#256) State.reset (.ok 123456789#256) :=
  ⟨rfl, answers_of (by decide), answers_of (by decide), answers_of (by decide), answers_of (by decide),
    answers_of (by decide), answers_of (by decide)⟩

/-- Each outcome, at its boundary: V-C8, V-C9, V-C9 (`EXACT`). -/
theorem witness_Ray2wadResult :
    RomIntact State.reset ∧
    RomIntact exactUnit ∧
    Answers (.ray2wad 115792089237316195423570985008687907853269984665640564039457584007912629639935#256) State.reset (.ok 115792089237316195423570985008687907853269984665640564039457584007913#256) ∧
    Answers (.ray2wad 115792089237316195423570985008687907853269984665640564039457584007912629639936#256) State.reset (.err .additionOverflow) ∧
    Answers (.ray2wad 115792089237316195423570985008687907853269984665640564039457584007912629639936#256) exactUnit (.err .additionOverflow) :=
  ⟨rfl, rfl, answers_of (by decide), answers_of (by decide), answers_of (by decide)⟩

/-- Each outcome, at its boundary: V-C16, V-C17. -/
theorem witness_Wad2rayResult :
    RomIntact State.reset ∧
    Answers (.wad2ray 115792089237316195423570985008687907853269984665640564039457584007913#256) State.reset (.ok 115792089237316195423570985008687907853269984665640564039457584007913000000000#256) ∧
    Answers (.wad2ray 115792089237316195423570985008687907853269984665640564039457584007914#256) State.reset (.err .multiplicationOverflow) :=
  ⟨rfl, answers_of (by decide), answers_of (by decide)⟩

/-- V-C3 and V-C4: a remainder just below the half and of exactly the half. -/
theorem witness_Ray2wadRoundsHalfUp :
    RomIntact State.reset ∧
    Answers (.ray2wad 499999999#256) State.reset (.ok 0#256) ∧ 499999999 = 0 * 10 ^ 9 + 499999999 ∧ 499999999 < 10 ^ 9 ∧
    Answers (.ray2wad 500000000#256) State.reset (.ok 1#256) ∧ 500000000 = 0 * 10 ^ 9 + 500000000 ∧ 500000000 < 10 ^ 9 :=
  ⟨rfl, answers_of (by decide), rfl, by decide, answers_of (by decide), rfl, by decide⟩

/-- V-C14 and V-C16. -/
theorem witness_Wad2rayIsExact :
    RomIntact State.reset ∧
    Answers (.wad2ray 1#256) State.reset (.ok 1000000000#256) ∧
    Answers (.wad2ray 115792089237316195423570985008687907853269984665640564039457584007913#256) State.reset (.ok 115792089237316195423570985008687907853269984665640564039457584007913000000000#256) :=
  ⟨rfl, answers_of (by decide), answers_of (by decide)⟩

/-- The three rows at the values where they meet: PRG2b (`T - 1`), PRG2 (`T`) and V-C17 (`T + 1`). -/
theorem witness_RoundTripTable :
    RomIntact State.reset ∧
    115792089237316195423570985008687907853269984665640564039457584007912 < 115792089237316195423570985008687907853269984665640564039457584007913 ∧
    Answers (.ray2wad 115792089237316195423570985008687907853269984665640564039457584007912000000000#256) State.reset (.ok 115792089237316195423570985008687907853269984665640564039457584007912#256) ∧
    Answers (.wad2ray 115792089237316195423570985008687907853269984665640564039457584007913#256) State.reset (.ok 115792089237316195423570985008687907853269984665640564039457584007913000000000#256) ∧
    Answers (.ray2wad 115792089237316195423570985008687907853269984665640564039457584007913000000000#256) State.reset (.err .additionOverflow) ∧
    Answers (.wad2ray 115792089237316195423570985008687907853269984665640564039457584007914#256) State.reset (.err .multiplicationOverflow) :=
  ⟨rfl, by decide, answers_of (by decide), answers_of (by decide), answers_of (by decide), answers_of (by decide)⟩

/-- V-C9 under both settings. -/
theorem witness_Ray2wadIgnoresRoundCarry :
    RomIntact State.reset ∧
    RomIntact exactUnit ∧
    Answers (.ray2wad 115792089237316195423570985008687907853269984665640564039457584007912629639936#256) State.reset (.err .additionOverflow) ∧
    Answers (.ray2wad 115792089237316195423570985008687907853269984665640564039457584007912629639936#256) exactUnit (.err .additionOverflow) :=
  ⟨rfl, rfl, answers_of (by decide), answers_of (by decide)⟩

/-- Each outcome, at its boundary: V-M20, V-M18, V-D24, V-D31, V-C17. -/
theorem witness_MultiplicationOverflowExactly :
    RomIntact State.reset ∧
    Answers (.wadmul 57896044618658097711785492504343953926634992332820282019728792003956564819968#256 2#256) State.reset (.err .multiplicationOverflow) ∧
    Answers (.raymul 340282366920938463463374607431768211456#256 340282366920938463463374607431768211456#256) State.reset (.err .multiplicationOverflow) ∧
    Answers (.waddiv 115792089237316195423570985008687907853269984665640564039458#256 1#256) State.reset (.err .multiplicationOverflow) ∧
    Answers (.raydiv 115792089237316195423570985008687907853269984665641#256 1#256) State.reset (.err .multiplicationOverflow) ∧
    Answers (.wad2ray 115792089237316195423570985008687907853269984665640564039457584007914#256) State.reset (.err .multiplicationOverflow) :=
  ⟨rfl, answers_of (by decide), answers_of (by decide), answers_of (by decide), answers_of (by decide), answers_of (by decide)⟩

/-- Each outcome, at its boundary: V-D4, V-D6. -/
theorem witness_DivisionByZeroExactly :
    RomIntact State.reset ∧
    Answers (.waddiv 0#256 0#256) State.reset (.err .divisionByZero) ∧
    Answers (.raydiv 115792089237316195423570985008687907853269984665640564039457584007913129639935#256 0#256) State.reset (.err .divisionByZero) :=
  ⟨rfl, answers_of (by decide), answers_of (by decide)⟩

/-- Each outcome, at its boundary: V-C9, V-M24, V-M27, V-D29, V-D34. -/
theorem witness_AdditionOverflowExactly :
    RomIntact State.reset ∧
    Answers (.ray2wad 115792089237316195423570985008687907853269984665640564039457584007912629639936#256) State.reset (.err .additionOverflow) ∧
    Answers (.wadmul 115792089237316195423570985008687907853269984665640564039457084007913129639936#256 1#256) State.reset (.err .additionOverflow) ∧
    Answers (.raymul 115792089237316195423570985008687907853269984665640064039457584007913129639936#256 1#256) State.reset (.err .additionOverflow) ∧
    Answers (.waddiv 115792089237316195423570985008687907853269984665640564039457#256 1168015826259279872#256) State.reset (.err .additionOverflow) ∧
    Answers (.raydiv 115792089237316195423570985008687907853269984665640#256 1128078915168015826259279872#256) State.reset (.err .additionOverflow) :=
  ⟨rfl, answers_of (by decide), answers_of (by decide), answers_of (by decide), answers_of (by decide), answers_of (by decide)⟩

/-- Each outcome, at its boundary: V-M22, V-M22 (`EXACT`), V-D27, V-D27 (`EXACT`). -/
theorem witness_ErrorsEachOperationCanRaise :
    RomIntact State.reset ∧
    RomIntact exactUnit ∧
    Answers (.wadmul 115792089237316195423570985008687907853269984665640564039457584007913129639935#256 1#256) State.reset (.err .additionOverflow) ∧
    Answers (.wadmul 115792089237316195423570985008687907853269984665640564039457584007913129639935#256 1#256) exactUnit (.ok 115792089237316195423570985008687907853269984665640564039458#256) ∧
    Answers (.waddiv 115792089237316195423570985008687907853269984665640564039457#256 115792089237316195423570985008687907853269984665640564039457584007913129639935#256) State.reset (.err .additionOverflow) ∧
    Answers (.waddiv 115792089237316195423570985008687907853269984665640564039457#256 115792089237316195423570985008687907853269984665640564039457584007913129639935#256) exactUnit (.ok 1#256) :=
  ⟨rfl, rfl, answers_of (by decide), answers_of (by decide), answers_of (by decide), answers_of (by decide)⟩

/-- V-D5, V-M16, V-D35: a zero divisor, and products that overflow. -/
theorem witness_ErrorPriority :
    RomIntact State.reset ∧
    Answers (.waddiv 115792089237316195423570985008687907853269984665640564039457584007913129639935#256 0#256) State.reset (.err .divisionByZero) ∧
    Answers (.wadmul 340282366920938463463374607431768211456#256 340282366920938463463374607431768211456#256) State.reset (.err .multiplicationOverflow) ∧
    Answers (.waddiv 115792089237316195423570985008687907853269984665640564039457584007913129639935#256 115792089237316195423570985008687907853269984665640564039457584007913129639935#256) State.reset (.err .multiplicationOverflow) ∧
    2 ^ 256 ≤ (2 ^ 128 * 2 ^ 128 : Nat) ∧
    (BitVec.allOnes 256 : Word) ≠ 0 ∧ 2 ^ 256 ≤ (BitVec.allOnes 256).toNat * 10 ^ 18 ∧
    2 ^ 256 ≤ (BitVec.allOnes 256).toNat * 10 ^ 27 :=
  ⟨rfl, answers_of (by decide), answers_of (by decide), answers_of (by decide), by decide, by decide, by decide⟩

/-- Each outcome, at its boundary: S1, S3, V-D13, V-D19, V-C6, V-C15. -/
theorem witness_SuccessIsExactFormula :
    RomIntact State.reset ∧
    Answers (.wadmul 2500000000000000000#256 500000000000000000#256) State.reset (.ok 1250000000000000000#256) ∧
    Answers (.raymul 2500000000000000000000000000#256 500000000000000000000000000#256) State.reset (.ok 1250000000000000000000000000#256) ∧
    Answers (.waddiv 2#256 3#256) State.reset (.ok 666666666666666667#256) ∧
    Answers (.raydiv 1#256 3#256) State.reset (.ok 333333333333333333333333333#256) ∧
    Answers (.ray2wad 1500000000#256) State.reset (.ok 2#256) ∧
    Answers (.wad2ray 123456789#256) State.reset (.ok 123456789000000000#256) :=
  ⟨rfl, answers_of (by decide), answers_of (by decide), answers_of (by decide), answers_of (by decide), answers_of (by decide), answers_of (by decide)⟩

/-- Each outcome, at its boundary: V-M7, V-M9, V-D8, V-D22, V-C4. -/
theorem witness_RoundingErrorIsAtMostHalf :
    RomIntact State.reset ∧
    Answers (.wadmul 3#256 500000000000000000#256) State.reset (.ok 2#256) ∧
    Answers (.raymul 1#256 500000000000000000000000000#256) State.reset (.ok 1#256) ∧
    Answers (.waddiv 1#256 2000000000000000000#256) State.reset (.ok 1#256) ∧
    Answers (.raydiv 1#256 2000000000000000000000000001#256) State.reset (.ok 0#256) ∧
    Answers (.ray2wad 500000000#256) State.reset (.ok 1#256) :=
  ⟨rfl, answers_of (by decide), answers_of (by decide), answers_of (by decide), answers_of (by decide), answers_of (by decide)⟩

end Sys2Proof.Tests
end

section
/-! PROOFS. What a step does with the oldest request (00_scope.md R8; 10_state.md R17, R18). -/

namespace Sys2Proof.Machine

/-- Taking the oldest request leaves the requests behind it in order, and every other field as it is. -/
theorem State.takeRequest_of_cons {s : State} {r : Request} {rest : List Request} (h : s.requests = r :: rest) :
    s.takeRequest = { s with requests := rest } := by
  simp [State.takeRequest, h]

/-- Settles O9: the step serves the oldest request, and to serve a request that decodes is to run its operation. -/
theorem stepRunsDecodedInstruction : Obligations.StepRunsDecodedInstruction := by
  intro s r rest i hrst hreq hdec
  calc step s = serve r s.takeRequest := step_request hrst hreq
    _ = exec i s.takeRequest := serve_of_decode hdec _
    _ = exec i { s with requests := rest } := by rw [State.takeRequest_of_cons hreq]

end Sys2Proof.Machine
end

section
/-! PROOFS. What every step keeps, and that none faults (10_state.md R14, R15, R16; 70_reset_and_hazards.md R124). -/

namespace Sys2Proof.Machine

/-! ### The invariant under each operation of the state -/

theorem RomIntact.of_unchanged {s t : State} (h : RomIntact s) (hu : Unchanged s t) : RomIntact t := by
  obtain ⟨hrom, -, -, -⟩ := hu
  exact hrom.trans h

theorem HostObeys.of_unchanged {s t : State} (h : HostObeys s) (hu : Unchanged s t) : HostObeys t := by
  obtain ⟨-, -, hreq, hrst⟩ := hu
  rwa [HostObeys, hreq, hrst]

theorem State.idle_unchanged (s : State) : Unchanged s s.idle := ⟨rfl, rfl, rfl, rfl⟩

/-- A request that is taken was within the host's obligations, and so are those behind it. -/
theorem HostObeys.takeRequest {s : State} (h : HostObeys s) : HostObeys s.takeRequest := by
  obtain ⟨hwf, howed⟩ := h
  exact ⟨fun r hr => hwf r (List.mem_of_mem_tail hr), fun hrst => by simp [howed hrst]⟩

theorem State.applyReset_hostObeys (s : State) : HostObeys s.applyReset := by
  simp [HostObeys]

/-- Settles O16: the invariant survives taking a request, a response on the port, an idle step and a reset. -/
theorem stepKeepsInvariant : Obligations.StepKeepsInvariant := by
  intro s t hrom hobeys hstep
  obtain ⟨r, rest, i, -, -, -, rfl⟩ | ⟨-, -, rfl⟩ | ⟨-, -, rfl⟩ := step_cases hstep
  case inl =>
    have hu := s.takeRequest.respond_unchanged (s.takeRequest.answer i)
    have htaken : RomIntact s.takeRequest := hrom
    exact ⟨htaken.of_unchanged hu, hobeys.takeRequest.of_unchanged hu, by simp⟩
  case inr.inl =>
    exact ⟨hrom.of_unchanged s.idle_unchanged, hobeys.of_unchanged s.idle_unchanged, by simp⟩
  case inr.inr => exact ⟨hrom, s.applyReset_hostObeys, by simp⟩

/-! ### No fault -/

theorem step_resetWhileOwed {s : State} {r : Request} {rest : List Request} (h1 : s.rst = true)
    (h2 : s.requests = r :: rest) : step s = .refused .resetWhileOwed := by
  simp [step, h1, h2]

theorem serve_ne_fault (r : Request) (s : State) (f : Fault) : serve r s ≠ .fault f := by
  cases hdec : decode r with
  | ok i =>
    rw [serve_of_decode hdec, exec_eq]
    nofun
  | error e =>
    obtain ⟨op⟩ := e
    simp [serve, hdec]

/-- Settles O17: a step idles, resets, is refused or serves a request, which reads present words of the ROM only. -/
theorem stepNeverFaults : Obligations.StepNeverFaults := by
  intro s f
  cases hrst : s.rst <;> cases hreq : s.requests
  case false.nil => rw [step_idle hrst hreq]; nofun
  case false.cons r rest => rw [step_request hrst hreq]; exact serve_ne_fault r s.takeRequest f
  case true.nil => rw [step_reset hrst hreq]; nofun
  case true.cons r rest => rw [step_resetWhileOwed hrst hreq]; nofun

end Sys2Proof.Machine
end

section
/-! PROOFS. The order of the responses, what one depends on, and the frame of an operation (10_state.md R10 to R20). -/

namespace Sys2Proof.Machine

/-! ### A queue of requests -/

/-- The step that takes a request of an operation puts its answer on the port and leaves the requests behind it owed. -/
theorem step_of_decode {s : State} {r : Request} {rest : List Request} {i : Instr} (hrst : s.rst = false)
    (hreq : s.requests = r :: rest) (hdec : decode r = .ok i) :
    ∃ t, step s = .next t ∧ t.response = some (s.answer i) ∧ t.requests = rest ∧ t.rst = false ∧
      t.rom = s.rom ∧ t.roundCarry = s.roundCarry := by
  refine ⟨s.takeRequest.respond (s.takeRequest.answer i), ?_, ?_, ?_, ?_, ?_, ?_⟩
  · rw [step_request hrst hreq, serve_of_decode hdec, exec_eq]
  · rw [State.response_respond, State.answer_congr s.takeRequest_rom s.takeRequest_roundCarry]
  · simp [hreq]
  · simp [hrst]
  · simp
  · simp

/-- Legal requests in front of a request delay its answer by one step each and do not change it. -/
theorem run_to_answer {r : Request} {i : Instr} (hdec : decode r = .ok i) (after before : List Request) (s : State)
    (hrst : s.rst = false) (hreq : s.requests = before ++ r :: after) (hwf : ∀ q ∈ before, q.wf = true) :
    ∃ t, core.run (before.length + 1) s = .next t ∧ t.response = some (s.answer i) ∧ t.requests = after ∧
      t.rom = s.rom ∧ t.roundCarry = s.roundCarry := by
  induction before generalizing s with
  | nil =>
    obtain ⟨t, hstep, hresp, hrest, -, hframe⟩ := step_of_decode hrst hreq hdec
    exact ⟨t, (run_succ hstep 0).trans (run_zero t), hresp, hrest, hframe⟩
  | cons q before ih =>
    obtain ⟨hq, hbefore⟩ := List.forall_mem_cons.1 hwf
    obtain ⟨j, hj⟩ := decode_ok_of_wf hq
    obtain ⟨u, hstep, -, hrest, hurst, hrom, hcarry⟩ := step_of_decode hrst hreq hj
    obtain ⟨t, hrun, hresp, hafter, htrom, htcarry⟩ := ih u hurst hrest hbefore
    refine ⟨t, (run_succ hstep _).trans hrun, ?_, hafter, htrom.trans hrom, htcarry.trans hcarry⟩
    rw [hresp, State.answer_congr hrom hcarry]

/-- Settles O20, by induction on the requests before the one asked about. -/
theorem responsesComeInOrderAndAlone : Obligations.ResponsesComeInOrderAndAlone := by
  intro s before after r i resp hrst hreq hwf hdec hans
  obtain rfl := answers_iff.1 hans
  exact run_to_answer hdec after before s hrst hreq hwf

/-- Settles O21: a presented request is the last of the queue, so nothing is left behind it. -/
theorem presentedRequestIsAnsweredInTurn : Obligations.PresentedRequestIsAnsweredInTurn := by
  intro s r i resp hrst hwf hdec hans
  obtain rfl := answers_iff.1 hans
  obtain ⟨t, hrun, hresp, hrest, -, -⟩ :=
    run_to_answer hdec [] s.requests (s.present r) hrst (s.present_requests r) hwf
  refine ⟨t, hrun, ?_, t.reqValid_eq_false.2 hrest⟩
  rw [hresp, State.answer_congr (s.present_rom r) (s.present_roundCarry r)]

/-! ### One operation -/

/-- Settles O22: the one response is `State.answer`, which reads the ROM and the setting of the build alone. -/
theorem responseIsFunctionOfRequest : Obligations.ResponseIsFunctionOfRequest := by
  intro i s
  refine ⟨⟨s.answer i, answers_answer i s⟩, ?_, ?_⟩
  · intro resp resp' h h'
    exact (answers_iff.1 h).trans (answers_iff.1 h').symm
  · intro t hrom hcarry resp
    rw [answers_iff, answers_iff, State.answer_congr hrom hcarry]

/-- A free value is drawn exactly by an error (log entry 1). -/
theorem State.respond_draws (s : State) (resp : Response) :
    (s.respond resp).draws = if (s.respond resp).rspErr = 0 then s.draws else s.draws + 1 := by
  cases resp with
  | ok v => exact (if_pos (s.returnOk_rspErr v)).symm
  | err k => exact (if_neg k.code_ne_zero).symm

/-- Settles O23: the next state is the old one with a response on its port. -/
theorem frameOfEveryOperation : Obligations.FrameOfEveryOperation := by
  intro i s t hexec
  obtain rfl := exec_cases hexec
  have hrom := s.respond_rom (s.answer i)
  exact ⟨fun index => by rw [hrom], hrom, s.respond_roundCarry _, s.respond_requests _, s.respond_rst _,
    s.respond_rspValid _, s.respond_draws _⟩

/-! ### No request, and reset -/

/-- Settles O11: the step without a request is the idle one. -/
theorem stepWithoutRequestIdles : Obligations.StepWithoutRequestIdles := by
  intro s hrst hreq
  exact ⟨s.idle, step_idle hrst hreq, s.idle_rspValid, s.response_idle, s.idle_unchanged⟩

/-- Settles O14: the words of the ROM after reset are those of R15. -/
theorem resetStateHoldsSpecifiedValues : Obligations.ResetStateHoldsSpecifiedValues := by
  refine ⟨State.reset_requests, State.reset_rspValid, ?_⟩
  rw [State.reset_rom]
  decide

/-- Settles O15: the ROM after reset is the one as built, and with no request and no `RST` the host is within its duties. -/
theorem resetStateMeetsInvariant : Obligations.ResetStateMeetsInvariant :=
  ⟨State.reset_rom, by simp [HostObeys]⟩

end Sys2Proof.Machine
end

section
/-! PROOFS. A success is the exact value of its formula (10_state.md R22; 60_exceptions.md R107). -/

namespace Sys2Proof.Machine

/-! ### The answers of a unit with an intact ROM -/

section

variable {s : State} (h : RomIntact s)
include h

theorem RomIntact.answer_wadmul (a b : Word) :
    s.answer (.wadmul a b) = mulround s.roundCarry a b (10 ^ 18) (5 * 10 ^ 17) := by
  rw [State.answer, h.unit_wad, h.half_wad]

theorem RomIntact.answer_raymul (a b : Word) :
    s.answer (.raymul a b) = mulround s.roundCarry a b (10 ^ 27) (5 * 10 ^ 26) := by
  rw [State.answer, h.unit_ray, h.half_ray]

theorem RomIntact.answer_waddiv (a b : Word) :
    s.answer (.waddiv a b) = divround s.roundCarry a b (10 ^ 18) := by
  rw [State.answer, h.unit_wad]

theorem RomIntact.answer_raydiv (a b : Word) :
    s.answer (.raydiv a b) = divround s.roundCarry a b (10 ^ 27) := by
  rw [State.answer, h.unit_ray]

theorem RomIntact.answer_ray2wad (x : Word) :
    s.answer (.ray2wad x) = downscale x (10 ^ 9) (5 * 10 ^ 8) := by
  rw [State.answer, h.ratio, h.halfRatio]

theorem RomIntact.answer_wad2ray (x : Word) : s.answer (.wad2ray x) = upscale x (10 ^ 9) := by
  rw [State.answer, h.ratio]

end

/-! ### What a success of each algorithm gives -/

/-- Rounding a quotient of a product that fits gives a result that fits, even where the rounding sum does not: so the
exact sum of 257 bits under `EXACT` is never cut (R70, R80). -/
theorem rounded_quotient_fits {p d half : Nat} (hp : p < 2 ^ 256) (hd : 0 < d) (hhalf : 2 * half ≤ d) :
    (p + half) / d < 2 ^ 256 := by
  rw [Nat.div_lt_iff_lt_mul hd]
  omega

theorem mulround_eq_ok {carry : RoundCarry} {a b v : Word} {d half : Nat} (hd : 0 < d) (hhalf : 2 * half ≤ d)
    (h : .ok v = mulround carry a b d half) : v.toNat = (a.toNat * b.toNat + half) / d := by
  rw [mulround_eq] at h
  split at h
  · cases h
  rename_i hp
  split at h
  · cases h
  exact (okNat_eq_ok (rounded_quotient_fits (Nat.not_le.1 hp) hd hhalf)).1 h.symm

theorem divround_eq_ok {carry : RoundCarry} {a b v : Word} {d : Nat} (h : .ok v = divround carry a b d) :
    v.toNat = (a.toNat * d + b.toNat / 2) / b.toNat := by
  rw [divround_eq] at h
  split at h
  · cases h
  rename_i hb
  split at h
  · cases h
  rename_i hp
  split at h
  · cases h
  have hpos : 0 < b.toNat := Nat.pos_of_ne_zero fun h0 => hb (BitVec.eq_of_toNat_eq h0)
  exact (okNat_eq_ok (rounded_quotient_fits (Nat.not_le.1 hp) hpos (Nat.mul_div_le _ _))).1 h.symm

theorem downscale_eq_ok {x v : Word} {q half : Nat} (h : .ok v = downscale x q half) :
    v.toNat = (x.toNat + half) / q := by
  rw [downscale_eq] at h
  split at h
  · cases h
  rename_i hsum
  exact (okNat_eq_ok ((Nat.div_le_self _ q).trans_lt (Nat.not_le.1 hsum))).1 h.symm

theorem upscale_eq_ok {x v : Word} {q : Nat} (h : .ok v = upscale x q) : v.toNat = x.toNat * q := by
  rw [upscale_eq] at h
  split at h
  · cases h
  rename_i hp
  exact (okNat_eq_ok (Nat.not_le.1 hp)).1 h.symm

/-- Settles O58: each operation answers by its algorithm at the constants of the ROM, and no success is cut. -/
theorem successIsExactFormula : Obligations.SuccessIsExactFormula := by
  intro a b v s hs
  simp only [answers_iff, hs.answer_wadmul, hs.answer_raymul, hs.answer_waddiv, hs.answer_raydiv, hs.answer_ray2wad,
    hs.answer_wad2ray]
  exact ⟨mulround_eq_ok (by decide) (by decide), mulround_eq_ok (by decide) (by decide), divround_eq_ok,
    divround_eq_ok, downscale_eq_ok, upscale_eq_ok⟩

end Sys2Proof.Machine
end

section
/-! PROOFS. The address map of the constant ROM and the relations of its words (20_memory.md R31; 10_state.md R15). -/

namespace Sys2Proof.Machine

/-- The indices above the last word read nothing (R31). -/
theorem romRead_eq_none {index : BitVec 3} (h : 5 ≤ index.toNat) (rom : Rom) : romRead rom index = none := by
  unfold romRead
  split
  case h_6 => rfl
  all_goals omega

theorem romContents_wad_eq : romContents.wad.toNat = 2 * romContents.halfWad.toNat := by decide

theorem romContents_ray_eq : romContents.ray.toNat = 2 * romContents.halfRay.toNat := by decide

theorem romContents_ray_eq_wad_mul_ratio :
    romContents.ray.toNat = romContents.wad.toNat * romContents.ratio.toNat := by decide

/-- Settles O27: an intact ROM is the one as built, read index by index. -/
theorem romSpaceHoldsFiveWords : Obligations.RomSpaceHoldsFiveWords := by
  intro s hs
  rw [hs.rom_eq]
  exact ⟨romRead_zero _, romRead_one _, romRead_two _, romRead_three _, romRead_four _,
    romRead_eq_none (by decide) _, romRead_eq_none (by decide) _, romRead_eq_none (by decide) _,
    romContents_wad_eq, romContents_ray_eq, romContents_ray_eq_wad_mul_ratio⟩

end Sys2Proof.Machine
end

section
/-! PROOFS. The request word, field by field, and the decoder of its opcode (30_encoding.md R40 to R44, R51). -/

namespace Sys2Proof

/-! ### The request word -/

/-- Two fields side by side weigh what place value says (R7). -/
theorem toNat_append_eq_add {m n : Nat} (x : BitVec m) (y : BitVec n) :
    (x ++ y).toNat = x.toNat * 2 ^ n + y.toNat := by
  rw [BitVec.toNat_append, ← Nat.shiftLeft_add_eq_or_of_lt y.isLt, Nat.shiftLeft_eq]

theorem Request.toNat_toWord (r : Request) :
    r.toWord.toNat = r.op.toNat * 2 ^ 512 + r.a.toNat * 2 ^ 256 + r.b.toNat := by
  have hpow : 2 ^ 512 = 2 ^ 256 * 2 ^ 256 := by simp only [← Nat.pow_add, Nat.reduceAdd]
  rw [Request.toWord, toNat_append_eq_add, toNat_append_eq_add, hpow, Nat.add_mul, Nat.mul_assoc]

theorem Request.ofWord_toWord (r : Request) : Request.ofWord r.toWord = r := by
  have hop : r.toWord.extractLsb' 512 4 = r.op :=
    (BitVec.extractLsb'_append_eq_of_le (by decide)).trans BitVec.extractLsb'_append_eq_left
  have ha : r.toWord.extractLsb' 256 256 = r.a :=
    (BitVec.extractLsb'_append_eq_of_le (by decide)).trans BitVec.extractLsb'_append_eq_right
  have hb : r.toWord.extractLsb' 0 256 = r.b := BitVec.extractLsb'_append_eq_right
  rw [Request.ofWord, hop, ha, hb]

theorem Request.toWord_ofWord (w : ReqWord) : (Request.ofWord w).toWord = w := by
  have hopa : w.extractLsb' 512 4 ++ w.extractLsb' 256 256 = w.extractLsb' 256 (4 + 256) :=
    BitVec.extractLsb'_append_extractLsb'_eq_extractLsb' rfl
  have hall : w.extractLsb' 256 (4 + 256) ++ w.extractLsb' 0 256 = w.extractLsb' 0 (4 + 256 + 256) :=
    BitVec.extractLsb'_append_extractLsb'_eq_extractLsb' rfl
  rw [Request.ofWord, Request.toWord, hopa, hall, BitVec.extractLsb'_eq_self]

/-- Settles O2: the weights of the fields, and the two directions of the layout. -/
theorem requestWordHasThreeFields : Obligations.RequestWordHasThreeFields :=
  ⟨fun r => ⟨r.toNat_toWord, r.ofWord_toWord⟩, Request.toWord_ofWord⟩

/-! ### The decoder -/

theorem decode_encode (i : Instr) : decode (encode i) = .ok i := by
  cases i <;> rfl

/-- Settles O1: the fields come back from the word, and the operation from the fields. -/
theorem encodedInstructionsDecodeBack : Obligations.EncodedInstructionsDecodeBack := by
  intro i
  calc decodeWord (encodeWord i) = decode (encode i) := by rw [decodeWord, encodeWord, Request.ofWord_toWord]
    _ = .ok i := decode_encode i

/-- Settles O3: the table is the one of R43, and a row it leaves out is reserved (R44). -/
theorem opcodeMapSelectsOperation : Obligations.OpcodeMapSelectsOperation := by
  intro a b
  exact ⟨rfl, rfl, rfl, rfl, rfl, rfl, decode_eq_error_of_reserved rfl, decode_eq_error_of_reserved rfl,
    rfl, rfl, rfl, rfl, rfl, decode_eq_error_of_reserved rfl, decode_eq_error_of_reserved rfl,
    decode_eq_error_of_reserved rfl⟩

/-- A request is known by the number of its word, so its operation can be read off that number. -/
theorem decodeWord_of_toNat {w : ReqWord} (r : Request)
    (h : w.toNat = r.op.toNat * 2 ^ 512 + r.a.toNat * 2 ^ 256 + r.b.toNat) : decodeWord w = decode r := by
  have hw : w = r.toWord := BitVec.eq_of_toNat_eq (h.trans r.toNat_toWord.symm)
  rw [decodeWord, hw, Request.ofWord_toWord]

/-- Settles O5: each word has the weights of its operation and operands. -/
theorem listedRequestWordsDecode : Obligations.ListedRequestWordsDecode :=
  ⟨decodeWord_of_toNat ⟨0x0#4, 2500000000000000000#256, 500000000000000000#256⟩ (by decide +kernel),
    decodeWord_of_toNat ⟨0x1#4, 1#256, 0#256⟩ (by decide +kernel),
    decodeWord_of_toNat ⟨0x4#4, BitVec.allOnes 256, 0#256⟩ (by decide +kernel),
    decodeWord_of_toNat ⟨0x4#4, 1000000000000000000000000000#256, BitVec.allOnes 256⟩ (by decide +kernel),
    decodeWord_of_toNat ⟨0x9#4, 0#256, 0#256⟩ (by decide +kernel),
    decodeWord_of_toNat ⟨0xC#4, BitVec.allOnes 256, BitVec.allOnes 256⟩ (by decide +kernel)⟩

/-! ### The structure of the opcode (R42) -/

/-- The opcode bits and the list of R44 reserve the same values. -/
theorem Request.wf_eq_legalByStructure (r : Request) : r.wf = legalByStructure r.op := by
  have hlegal : ∀ op : BitVec 4, legalOp op = legalByStructure op := by decide
  exact hlegal r.op

theorem legal_arith_op_mem : ∀ op : BitVec 4, legalByStructure op = true → op.getLsbD 3 ≠ true →
    op ∈ [0x0#4, 0x1#4, 0x2#4, 0x3#4, 0x4#4, 0x5#4] := by decide

theorem legal_const_op_mem : ∀ op : BitVec 4, legalByStructure op = true → op.getLsbD 3 = true →
    op ∈ [0x8#4, 0x9#4, 0xA#4, 0xB#4, 0xC#4] := by decide

theorem decode_of_arith_class {op : BitVec 4} (hlegal : legalByStructure op = true) (hclass : op.getLsbD 3 ≠ true)
    (a b : Word) : decode ⟨op, a, b⟩ = .ok (arithByStructure op a b) := by
  have hmem := legal_arith_op_mem op hlegal hclass
  simp only [List.mem_cons, List.not_mem_nil, or_false] at hmem
  obtain rfl | rfl | rfl | rfl | rfl | rfl := hmem <;> rfl

theorem decode_of_const_class {op : BitVec 4} (hlegal : legalByStructure op = true) (hclass : op.getLsbD 3 = true)
    (a b : Word) : ∃ i, constByIndex (op.extractLsb' 0 3) = some i ∧ decode ⟨op, a, b⟩ = .ok i := by
  have hmem := legal_const_op_mem op hlegal hclass
  simp only [List.mem_cons, List.not_mem_nil, or_false] at hmem
  obtain rfl | rfl | rfl | rfl | rfl := hmem <;> exact ⟨_, rfl, rfl⟩

/-- Settles O4: the class bit sends a legal opcode to one of the two readings, and any other opcode is reserved. -/
theorem opcodeBitsAgreeWithTable : Obligations.OpcodeBitsAgreeWithTable := by
  intro op a b
  by_cases hlegal : legalByStructure op = true
  case neg =>
    have hwf : (Request.mk op a b).wf = false := by
      rw [Request.wf_eq_legalByStructure]
      exact Bool.eq_false_of_not_eq_true hlegal
    rw [if_neg hlegal, decode_eq_error_of_reserved hwf]
  case pos =>
    rw [if_pos hlegal]
    by_cases hclass : op.getLsbD 3 = true
    · obtain ⟨i, hindex, hdec⟩ := decode_of_const_class hlegal hclass a b
      rw [if_pos hclass, hindex, hdec]
    · rw [if_neg hclass, decode_of_arith_class hlegal hclass]

end Sys2Proof
end

section
/-! PROOFS. The step on a reserved opcode, on unused fields and on a placed row, and the assembler (30_encoding.md R43
to R45, R51). -/

namespace Sys2Proof.Machine

/-! ### Reserved opcodes -/

theorem wf_eq_false_of_reserved {r : Request}
    (h : r.op = 0x6#4 ∨ r.op = 0x7#4 ∨ r.op = 0xD#4 ∨ r.op = 0xE#4 ∨ r.op = 0xF#4) : r.wf = false := by
  have hlegal : ∀ op : BitVec 4, (op = 0x6#4 ∨ op = 0x7#4 ∨ op = 0xD#4 ∨ op = 0xE#4 ∨ op = 0xF#4) →
      legalOp op = false := by decide
  exact hlegal r.op h

theorem serve_of_reserved {r : Request} (h : r.wf = false) (s : State) :
    serve r s = .refused (.reservedOpcode r.op) := by
  simp [serve, decode_eq_error_of_reserved h]

/-- Settles O6: the step serves the oldest request, and the decoder rejects it by its opcode. -/
theorem reservedOpcodesAreRefused : Obligations.ReservedOpcodesAreRefused := by
  intro s r rest hrst hreq hop
  rw [step_request hrst hreq, serve_of_reserved (wf_eq_false_of_reserved hop)]

/-! ### Unused fields -/

/-- A step depends on the oldest request only through what it decodes to. -/
theorem step_congr_of_decode {r r' : Request} (h : decode r = decode r') (s : State) (rest : List Request) :
    step { s with requests := r :: rest } = step { s with requests := r' :: rest } := by
  rcases Bool.eq_false_or_eq_true s.rst with hrst | hrst
  · have howed (q : Request) : step { s with requests := q :: rest } = .refused .resetWhileOwed :=
      step_resetWhileOwed (s := { s with requests := q :: rest }) hrst rfl
    rw [howed, howed]
  · have hserve (q : Request) : step { s with requests := q :: rest } = serve q { s with requests := rest } :=
      step_request (s := { s with requests := q :: rest }) hrst rfl
    rw [hserve, hserve, serve, serve, h]

/-- Settles O7: the fields a format does not use are dropped by the decoder. -/
theorem unusedFieldsAreIgnored : Obligations.UnusedFieldsAreIgnored := by
  constructor
  · intro op s rest x b b' hop
    have hdec : decode ⟨op, x, b⟩ = decode ⟨op, x, b'⟩ := by
      obtain rfl | rfl := hop <;> rfl
    exact step_congr_of_decode hdec s rest
  · intro op s rest a a' b b' hop
    have hdec : decode ⟨op, a, b⟩ = decode ⟨op, a', b'⟩ := by
      obtain rfl | rfl | rfl | rfl | rfl := hop <;> rfl
    exact step_congr_of_decode hdec s rest

/-! ### The assembler -/

theorem assemble_mnemonicOf_operandsOf (i : Instr) : assemble (mnemonicOf i) (operandsOf i) = some i := by
  cases i <;> rfl

/-- The operand fields of an assembled request are the operands in order, filled up with zero (R51). -/
theorem encode_operand_fields (i : Instr) :
    (encode i).a = (operandsOf i).getD 0 0 ∧ (encode i).b = (operandsOf i).getD 1 0 := by
  cases i <;> exact ⟨rfl, rfl⟩

/-- Settles O8: two operands, one and none are what the formats of the listed operations have. -/
theorem syntaxAssemblesToOperation : Obligations.SyntaxAssemblesToOperation := by
  refine ⟨assemble_mnemonicOf_operandsOf, ?_, ?_, ?_⟩ <;> simp [encode_operand_fields, operandsOf]

/-! ### A placed row -/

theorem decodeTableWord_eq_some {nbits w : Nat} {i : Instr} (h : decodeTableWord nbits w = some i) :
    decode (tableRequest nbits w) = .ok i := by
  unfold decodeTableWord at h
  split at h
  next j hj => rw [hj, Option.some.inj h]
  next => cases h

/-- Settles O10: the placed request is the oldest one, and to take it out again leaves `s` with `RST` not asserted. -/
theorem placedInstructionRunsNext : Obligations.PlacedInstructionRunsNext := by
  intro s nbits w i h
  exact stepRunsDecodedInstruction (s.withFetchWord nbits w) _ _ i rfl rfl (decodeTableWord_eq_some h)

end Sys2Proof.Machine
end

section
/-! PROOFS. The response word, and what each value of `ERR` means (30_encoding.md R46, R47). -/

namespace Sys2Proof.Machine

theorem State.toNat_rspWord (s : State) : s.rspWord.toNat = s.rspErr.toNat * 2 ^ 256 + s.rspR.toNat :=
  toNat_append_eq_add s.rspErr s.rspR

/-- Each error kind is the meaning of its own code and of no other. -/
theorem errorOfCode_eq_some_iff (err : BitVec 2) (k : MathError) : errorOfCode err = some k ↔ err = k.code := by
  cases k <;> revert err <;> decide

theorem errorOfCode_eq_none_iff : ∀ err : BitVec 2, errorOfCode err = none ↔ err = 0#2 := by decide

/-- While `RSP_VALID` is 1 the host reads a value exactly where `ERR` is 0. -/
theorem State.response_eq_ok_iff {s : State} (h : s.rspValid = true) (v : Word) :
    s.response = some (.ok v) ↔ s.rspErr = 0#2 ∧ s.rspR = v := by
  rw [State.response, if_pos h, ← errorOfCode_eq_none_iff]
  cases errorOfCode s.rspErr <;> simp

/-- While `RSP_VALID` is 1 the host reads an error exactly where `ERR` is the code of its kind. -/
theorem State.response_eq_err_iff {s : State} (h : s.rspValid = true) (k : MathError) :
    s.response = some (.err k) ↔ s.rspErr = k.code := by
  rw [State.response, if_pos h, ← errorOfCode_eq_some_iff]
  cases errorOfCode s.rspErr <;> simp

/-- Settles O25: an operation always leaves a valid response, which is read by the code in `ERR`. -/
theorem responseWordCarriesOutcome : Obligations.ResponseWordCarriesOutcome := by
  intro i s t hexec
  have hvalid : t.rspValid = true := by rw [exec_cases hexec, State.respond_rspValid]
  exact ⟨t.toNat_rspWord, State.response_eq_ok_iff hvalid, State.response_eq_err_iff hvalid _,
    State.response_eq_err_iff hvalid _, State.response_eq_err_iff hvalid _⟩

/-- Settles O26: an error is put on the port by the one shared operation `State.raise`. -/
theorem errorResultIsFreeValue : Obligations.ErrorResultIsFreeValue := by
  intro i s k h
  calc exec i s = .next (s.respond (s.answer i)) := exec_eq i s
    _ = .next (s.raise k) := by rw [← answers_iff.1 h, State.respond]

end Sys2Proof.Machine
end

section
/-! PROOFS. The constant reads (40_constants.md R60 to R65). -/

namespace Sys2Proof.Machine

/-- Each read answers its own word of the ROM, whatever the ROM holds (R60). -/
theorem constReads_answer_romWords (s : State) :
    Answers .constWad s (.ok s.rom.wad) ∧ Answers .constHalfWad s (.ok s.rom.halfWad) ∧
      Answers .constRay s (.ok s.rom.ray) ∧ Answers .constHalfRay s (.ok s.rom.halfRay) ∧
      Answers .constRatio s (.ok s.rom.ratio) :=
  ⟨answers_answer .constWad s, answers_answer .constHalfWad s, answers_answer .constRay s,
    answers_answer .constHalfRay s, answers_answer .constRatio s⟩

/-- Settles O28: each read answers its word of the ROM, and the words of an intact ROM are those of R15. -/
theorem constantReadsAnswerTheRomWords : Obligations.ConstantReadsAnswerTheRomWords := by
  intro s hs
  have hreads := constReads_answer_romWords s
  rw [hs.rom_eq] at hreads
  exact hreads

end Sys2Proof.Machine
end

section
/-! PROOFS. The fixed-point multiplier (41_multiply.md R71 to R73, R75 to R78). -/

namespace Sys2Proof.Machine

/-! ### The result, case by case -/

/-- Settles O30: `WADMUL` is `mulround` at the WAD words of the ROM. -/
theorem wadmulResult : Obligations.WadmulResult := by
  intro a b s hs
  rw [answers_iff, hs.answer_wadmul, mulround_eq, okNat]

/-- Settles O31: `RAYMUL` is `mulround` at the RAY words of the ROM. -/
theorem raymulResult : Obligations.RaymulResult := by
  intro a b s hs
  rw [answers_iff, hs.answer_raymul, mulround_eq, okNat]

/-- A product whose rounding sum fits is rounded under either setting of `ROUND_CARRY`. -/
theorem mulround_of_sum_fits {a b : Word} {half : Nat} (h : a.toNat * b.toNat + half < 2 ^ 256)
    (carry : RoundCarry) (d : Nat) :
    mulround carry a b d half = okNat ((a.toNat * b.toNat + half) / d) := by
  rw [mulround, checkProduct_of_fits (Nat.lt_of_add_right_lt h), checkRoundingSum_of_fits h]

theorem mulround_of_product_overflow {a b : Word} (h : 2 ^ 256 ≤ a.toNat * b.toNat) (carry : RoundCarry)
    (d half : Nat) : mulround carry a b d half = .err .multiplicationOverflow :=
  checkProduct_of_not_fits h _

theorem mulround_comm (carry : RoundCarry) (a b : Word) (d half : Nat) :
    mulround carry a b d half = mulround carry b a d half := by
  rw [mulround, mulround, Nat.mul_comm]

/-! ### Zero, and multiplying by one -/

/-- A zero product leaves the rounding term alone to be divided, and it is less than the base unit. -/
theorem mulround_zero {d half : Nat} (hhalf : half < d) (hfits : half < 2 ^ 256) (carry : RoundCarry) (a : Word) :
    mulround carry a 0 d half = .ok 0 := by
  have hp : a.toNat * (0 : Word).toNat = 0 := Nat.mul_zero _
  rw [mulround_of_sum_fits (by omega), hp, Nat.zero_add, Nat.div_eq_of_lt hhalf]
  rfl

/-- Settles O32: zero on the right by `mulround_zero`, on the left by commutativity. -/
theorem zeroAbsorbsInMultiply : Obligations.ZeroAbsorbsInMultiply := by
  intro a s hs
  simp only [answers_iff, hs.answer_wadmul, hs.answer_raymul, mulround_comm _ 0 a]
  have hwad := mulround_zero (d := 10 ^ 18) (half := 5 * 10 ^ 17) (by decide) (by decide) s.roundCarry a
  have hray := mulround_zero (d := 10 ^ 27) (half := 5 * 10 ^ 26) (by decide) (by decide) s.roundCarry a
  exact ⟨hwad.symm, hwad.symm, hray.symm, hray.symm⟩

/-- Multiplying by the base unit. The rounding term is at most `MAX mod d`, so a product that fits is never in the band
of R77. -/
theorem mulround_by_unit {b : Word} {d half : Nat} (hb : b.toNat = d) (hhalf : half < d)
    (hmod : half ≤ (2 ^ 256 - 1) % d) (carry : RoundCarry) (a : Word) :
    mulround carry a b d half =
      if a.toNat ≤ (2 ^ 256 - 1) / d then .ok a else .err .multiplicationOverflow := by
  have hd : 0 < d := Nat.zero_lt_of_lt hhalf
  split
  case isTrue ha =>
    have hsum : a.toNat * b.toNat + half < 2 ^ 256 := by
      have hle := Nat.mul_le_mul_left d ha
      have hdiv := Nat.div_add_mod (2 ^ 256 - 1) d
      rw [hb, Nat.mul_comm]
      omega
    rw [mulround_of_sum_fits hsum, hb, Nat.add_comm, Nat.add_mul_div_right _ _ hd, Nat.div_eq_of_lt hhalf,
      Nat.zero_add]
    exact (okNat_eq_ok a.isLt).2 rfl
  case isFalse ha =>
    have hlt := (Nat.div_lt_iff_lt_mul hd).1 (Nat.not_le.1 ha)
    exact mulround_of_product_overflow (by rw [hb]; omega) carry d half

/-- Settles O37: `MAX mod d` is at least the half in both formats. -/
theorem multiplyByOneIsIdentity : Obligations.MultiplyByOneIsIdentity := by
  intro a s hs
  simp only [answers_iff, hs.answer_wadmul, hs.answer_raymul]
  have hwad := mulround_by_unit (b := 1000000000000000000#256) (d := 10 ^ 18) (half := 5 * 10 ^ 17) (by decide)
    (by decide) (by decide) s.roundCarry a
  have hray := mulround_by_unit (b := 1000000000000000000000000000#256) (d := 10 ^ 27) (half := 5 * 10 ^ 26)
    (by decide) (by decide) (by decide) s.roundCarry a
  exact ⟨hwad.symm, hray.symm⟩

/-! ### The overflow boundary -/

theorem mulround_eq_multiplicationOverflow_iff (carry : RoundCarry) (a b : Word) (d half : Nat) :
    .err .multiplicationOverflow = mulround carry a b d half ↔ 2 ^ 256 ≤ a.toNat * b.toNat := by
  rw [mulround_eq]
  split
  case isTrue hp => exact iff_of_true rfl hp
  case isFalse hp =>
    refine iff_of_false ?_ hp
    split <;> nofun

/-- `fits256(A*B)` fails exactly when `B` is not 0 and `A` is above `MAX div B` (R76). -/
theorem product_overflow_iff (a b : Nat) : 2 ^ 256 ≤ a * b ↔ b ≠ 0 ∧ (2 ^ 256 - 1) / b < a := by
  rcases Nat.eq_zero_or_pos b with rfl | hb
  · simp
  · rw [Nat.div_lt_iff_lt_mul hb]
    omega

/-- Settles O35: the product test is the only one that raises the error, and no test tells the operands apart. -/
theorem multiplyBoundaryAndCommutes : Obligations.MultiplyBoundaryAndCommutes := by
  intro a b s hs
  simp only [answers_iff, hs.answer_wadmul, hs.answer_raymul, mulround_eq_multiplicationOverflow_iff,
    product_overflow_iff, mulround_comm _ b a, implies_true, and_true]

/-! ### The band of `ROUND_CARRY` -/

/-- In the band the product fits and its rounding sum does not, so each setting answers in its own way; outside it both
tests come out the same under both settings. -/
theorem mulround_band (a b : Word) (d half : Nat) :
    if 2 ^ 256 - half ≤ a.toNat * b.toNat ∧ a.toNat * b.toNat ≤ 2 ^ 256 - 1 then
      .err .additionOverflow = mulround .addOvf a b d half ∧
      okNat ((a.toNat * b.toNat + half) / d) = mulround .exact a b d half
    else ∀ resp, resp = mulround .addOvf a b d half ↔ resp = mulround .exact a b d half := by
  split
  case isTrue hband =>
    obtain ⟨hlow, hhigh⟩ := hband
    have hp : ¬ 2 ^ 256 ≤ a.toNat * b.toNat := by omega
    have hsum : 2 ^ 256 ≤ a.toNat * b.toNat + half := by omega
    rw [mulround_eq, mulround_eq, if_neg hp, if_neg hp, if_pos ⟨hsum, rfl⟩, if_neg (by simp)]
    exact ⟨rfl, rfl⟩
  case isFalse hband =>
    intro resp
    rcases Nat.lt_or_ge (a.toNat * b.toNat) (2 ^ 256) with hp | hp
    · have hsum : a.toNat * b.toNat + half < 2 ^ 256 := by omega
      rw [mulround_of_sum_fits hsum, mulround_of_sum_fits hsum]
    · rw [mulround_of_product_overflow hp, mulround_of_product_overflow hp]

/-- Settles O36, by `mulround_band` in each format. -/
theorem multiplyBandDependsOnRoundCarry : Obligations.MultiplyBandDependsOnRoundCarry := by
  intro a b s t hs ht hadd hexact
  simp only [answers_iff, hs.answer_wadmul, hs.answer_raymul, ht.answer_wadmul, ht.answer_raymul, hadd, hexact]
  exact ⟨mulround_band a b (10 ^ 18) (5 * 10 ^ 17), mulround_band a b (10 ^ 27) (5 * 10 ^ 26)⟩

/-! ### The bounds of a result -/

/-- A success passed both tests. -/
theorem mulround_ok_fits {carry : RoundCarry} {a b v : Word} {d half : Nat} (h : .ok v = mulround carry a b d half) :
    a.toNat * b.toNat < 2 ^ 256 ∧ (carry = .addOvf → a.toNat * b.toNat + half < 2 ^ 256) := by
  rw [mulround_eq] at h
  split at h
  · cases h
  rename_i hp
  split at h
  · cases h
  rename_i hsum
  exact ⟨Nat.not_le.1 hp, fun hcarry => Nat.not_le.1 fun hge => hsum ⟨hge, hcarry⟩⟩

theorem mulround_ok_le {carry : RoundCarry} {a b v : Word} {d half : Nat} (hd : 0 < d) (hhalf : 2 * half ≤ d)
    (h : .ok v = mulround carry a b d half) :
    v.toNat ≤ (2 ^ 256 - 1 + half) / d ∧ (carry = .addOvf → v.toNat ≤ (2 ^ 256 - 1) / d) := by
  obtain ⟨hp, hsum⟩ := mulround_ok_fits h
  rw [mulround_eq_ok hd hhalf h]
  exact ⟨Nat.div_le_div_right (by omega), fun hcarry => Nat.div_le_div_right (Nat.le_pred_of_lt (hsum hcarry))⟩

/-- Settles O34: the numerals of R75 are the two quotients of `mulround_ok_le`. -/
theorem multiplyResultBounds : Obligations.MultiplyResultBounds := by
  intro a b v s hs
  simp only [answers_iff, hs.answer_wadmul, hs.answer_raymul]
  exact ⟨mulround_ok_le (by decide) (by decide), mulround_ok_le (by decide) (by decide)⟩

end Sys2Proof.Machine
end

section
/-! PROOFS. Rounding half up, and the loss of one rounding step (41_multiply.md R74; 42_divide.md R84; 43_convert.md
R92). -/

namespace Sys2Proof.Machine

/-! ### Half up -/

/-- Adding the half before the division moves a remainder of at least the half up to the next quotient (R74). -/
theorem add_half_div {q r d half : Nat} (hd : d = 2 * half) (hr : r < d) :
    (q * d + r + half) / d = if r < half then q else q + 1 := by
  split
  case isTrue hlow => exact Nat.div_eq_of_lt_le (by omega) (by rw [Nat.add_mul]; omega)
  case isFalse hhigh =>
    exact Nat.div_eq_of_lt_le (by rw [Nat.add_mul]; omega) (by rw [Nat.add_mul, Nat.add_mul]; omega)

/-- Settles O33: a success is the exact formula (O58), and the half of each format is half its base unit. -/
theorem multiplyRoundsHalfUp : Obligations.MultiplyRoundsHalfUp := by
  intro a b v q r s hs
  obtain ⟨hwad, hray, -⟩ := successIsExactFormula a b v s hs
  constructor
  · intro hans hp hr
    rw [hwad hans, hp, add_half_div (by decide) hr]
  · intro hans hp hr
    rw [hray hans, hp, add_half_div (by decide) hr]

/-! ### The rounding error -/

/-- A quotient rounded with the floor of half the divisor is off by more than -1/2 and at most +1/2. -/
theorem rounded_quotient_error {v p d half : Nat} (hd : 0 < d) (hhalf : half = d / 2) (hv : v = (p + half) / d) :
    2 * v * d ≤ 2 * p + d ∧ 2 * p < 2 * v * d + d := by
  have hle : v * d ≤ p + half := hv ▸ Nat.div_mul_le_self _ _
  have hlt : p + half < v * d + d := hv ▸ Nat.lt_div_mul_add hd
  rw [Nat.mul_assoc]
  omega

theorem divround_ok_divisor_pos {carry : RoundCarry} {a b v : Word} {d : Nat} (h : .ok v = divround carry a b d) :
    0 < b.toNat := by
  refine Nat.pos_of_ne_zero fun h0 => ?_
  obtain rfl : b = 0 := BitVec.eq_of_toNat_eq h0
  exact Response.noConfusion (h.trans (checkDivisor_zero _))

/-- Settles O59: every success is the exact formula (O58), which rounds with half the divisor. -/
theorem roundingErrorIsAtMostHalf : Obligations.RoundingErrorIsAtMostHalf := by
  intro a b v s hs
  obtain ⟨hwadmul, hraymul, hwaddiv, hraydiv, hray2wad, -⟩ := successIsExactFormula a b v s hs
  refine ⟨?_, ?_, ?_, ?_, ?_⟩
  · exact fun h => rounded_quotient_error (by decide) (by decide) (hwadmul h)
  · exact fun h => rounded_quotient_error (by decide) (by decide) (hraymul h)
  · intro h
    have hpos := divround_ok_divisor_pos ((answers_iff.1 h).trans (hs.answer_waddiv a b))
    exact rounded_quotient_error hpos rfl (hwaddiv h)
  · intro h
    have hpos := divround_ok_divisor_pos ((answers_iff.1 h).trans (hs.answer_raydiv a b))
    exact rounded_quotient_error hpos rfl (hraydiv h)
  · exact fun h => rounded_quotient_error (by decide) (by decide) (hray2wad h)

end Sys2Proof.Machine
end

section
/-! PROOFS. The fixed-point divider (42_divide.md R81 to R89). -/

namespace Sys2Proof.Machine

/-! ### The result, case by case -/

theorem word_eq_zero_iff (b : Word) : b = 0 ↔ b.toNat = 0 :=
  BitVec.toNat_inj.symm

/-- Settles O38: `WADDIV` is `divround` at the WAD word of the ROM. -/
theorem waddivResult : Obligations.WaddivResult := by
  intro a b s hs
  rw [answers_iff, hs.answer_waddiv, divround_eq, okNat]
  simp only [word_eq_zero_iff]

/-- Settles O39: `RAYDIV` is `divround` at the RAY word of the ROM. -/
theorem raydivResult : Obligations.RaydivResult := by
  intro a b s hs
  rw [answers_iff, hs.answer_raydiv, divround_eq, okNat]
  simp only [word_eq_zero_iff]

theorem divround_by_zero (carry : RoundCarry) (a : Word) (d : Nat) :
    divround carry a 0 d = .err .divisionByZero :=
  checkDivisor_zero _

theorem divround_of_product_overflow {a b : Word} {d : Nat} (hb : b ≠ 0) (h : 2 ^ 256 ≤ a.toNat * d)
    (carry : RoundCarry) : divround carry a b d = .err .multiplicationOverflow := by
  rw [divround, checkDivisor_of_ne hb, checkProduct_of_not_fits h]

/-- A product whose rounding sum fits is divided under either setting of `ROUND_CARRY`. -/
theorem divround_of_sum_fits {a b : Word} {d : Nat} (hb : b ≠ 0) (h : a.toNat * d + b.toNat / 2 < 2 ^ 256)
    (carry : RoundCarry) : divround carry a b d = okNat ((a.toNat * d + b.toNat / 2) / b.toNat) := by
  rw [divround, checkDivisor_of_ne hb, checkProduct_of_fits (Nat.lt_of_add_right_lt h), halfDivisor,
    checkRoundingSum_of_fits h]

/-- A product that fits is divided where its rounding sum fits too, and under `EXACT` wherever that sum ends up. -/
theorem divround_of_no_addition_overflow {carry : RoundCarry} {a b : Word} {d : Nat} (hb : b ≠ 0)
    (hp : a.toNat * d < 2 ^ 256) (h : a.toNat * d + b.toNat / 2 < 2 ^ 256 ∨ carry = .exact) :
    divround carry a b d = okNat ((a.toNat * d + b.toNat / 2) / b.toNat) := by
  rcases h with hsum | rfl
  · exact divround_of_sum_fits hb hsum carry
  · rw [divround, checkDivisor_of_ne hb, checkProduct_of_fits hp, checkRoundingSum, halfDivisor]

/-! ### Zero, dividing by one, and a number by itself -/

/-- Over a zero numerator the rounding term stands alone, and it is less than the divisor. -/
theorem divround_zero (carry : RoundCarry) (b : Word) (d : Nat) :
    divround carry 0 b d = if b = 0 then .err .divisionByZero else .ok 0 := by
  split
  case isTrue hb => rw [hb, divround_by_zero]
  case isFalse hb =>
    have hpos : 0 < b.toNat := Nat.pos_of_ne_zero ((word_eq_zero_iff b).not.1 hb)
    have hsum : (0 : Word).toNat * d + b.toNat / 2 = b.toNat / 2 := by simp
    have hfits : b.toNat / 2 < 2 ^ 256 := (Nat.div_le_self _ _).trans_lt b.isLt
    rw [divround_of_sum_fits hb (by rwa [hsum]), hsum, Nat.div_eq_of_lt (Nat.div_lt_self hpos (by decide))]
    rfl

/-- Settles O40, by `divround_zero` in each format. -/
theorem zeroNumeratorDividesToZero : Obligations.ZeroNumeratorDividesToZero := by
  intro b s hs
  simp only [answers_iff, hs.answer_waddiv, hs.answer_raydiv, divround_zero, and_self]

/-- Dividing by the base unit is multiplying by it: the product, the rounding term and the divisor are the same. -/
theorem divround_by_unit_eq_mulround {b : Word} (hb : b ≠ 0) (carry : RoundCarry) (a : Word) :
    divround carry a b b.toNat = mulround carry a b b.toNat (b.toNat / 2) := by
  rw [divround, checkDivisor_of_ne hb, mulround, halfDivisor]

/-- Over itself a number gives the base unit: the rounding term is less than the divisor. -/
theorem divround_self {carry : RoundCarry} {a : Word} {d : Nat} (hpos : 1 ≤ a.toNat) (hd : 0 < d)
    (ha : a.toNat ≤ (2 ^ 256 - 1) / d) (hsum : a.toNat * d + a.toNat / 2 < 2 ^ 256 ∨ carry = .exact) :
    divround carry a a d = .ok (BitVec.ofNat 256 d) := by
  have hne : a ≠ 0 := fun h => Nat.ne_of_gt hpos ((word_eq_zero_iff a).1 h)
  have hp : a.toNat * d < 2 ^ 256 := Nat.lt_of_le_pred (by decide) ((Nat.le_div_iff_mul_le hd).1 ha)
  rw [divround_of_no_addition_overflow hne hp hsum, Nat.mul_add_div hpos,
    Nat.div_eq_of_lt (Nat.div_lt_self hpos (by decide)), Nat.add_zero, okNat]

/-- Settles O45: by one through the multiplier (R78), by itself through `divround_self`. -/
theorem divideByOneAndBySelf : Obligations.DivideByOneAndBySelf := by
  intro a s hs
  have hwad := divround_by_unit_eq_mulround (b := 1000000000000000000#256) (by decide) s.roundCarry a
  have hray := divround_by_unit_eq_mulround (b := 1000000000000000000000000000#256) (by decide) s.roundCarry a
  rw [mulround_by_unit rfl (by decide) (by decide)] at hwad hray
  simp only [answers_iff, hs.answer_waddiv, hs.answer_raydiv]
  exact ⟨hwad.symm, hray.symm, fun hpos ha hsum => (divround_self hpos (by decide) ha hsum).symm,
    fun hpos ha hsum => (divround_self hpos (by decide) ha hsum).symm⟩

/-! ### The overflow boundary -/

theorem divround_eq_multiplicationOverflow_iff {b : Word} (hb : b ≠ 0) (carry : RoundCarry) (a : Word) (d : Nat) :
    .err .multiplicationOverflow = divround carry a b d ↔ 2 ^ 256 ≤ a.toNat * d := by
  rw [divround_eq, if_neg hb]
  split
  case isTrue hp => exact iff_of_true rfl hp
  case isFalse hp =>
    refine iff_of_false ?_ hp
    split <;> nofun

/-- Settles O43: past the divisor test the product test alone raises the error, and it does not read the divisor. -/
theorem divideOverflowBoundary : Obligations.DivideOverflowBoundary := by
  intro a b s hs hb
  simp only [answers_iff, hs.answer_waddiv, hs.answer_raydiv, divround_eq_multiplicationOverflow_iff hb,
    product_overflow_iff]
  exact ⟨and_iff_right (by decide), and_iff_right (by decide)⟩

/-! ### The band of `ROUND_CARRY` -/

/-- In the band the divisor and the product pass and the rounding sum does not fit, so each setting answers in its own
way; outside it the tests come out the same under both settings. -/
theorem divround_band (a b : Word) (d : Nat) :
    if b ≠ 0 ∧ a.toNat * d ≤ 2 ^ 256 - 1 ∧ 2 ^ 256 ≤ a.toNat * d + b.toNat / 2 then
      .err .additionOverflow = divround .addOvf a b d ∧
      okNat ((a.toNat * d + b.toNat / 2) / b.toNat) = divround .exact a b d
    else ∀ resp, resp = divround .addOvf a b d ↔ resp = divround .exact a b d := by
  split
  case isTrue hband =>
    obtain ⟨hb, hhigh, hsum⟩ := hband
    have hp : a.toNat * d < 2 ^ 256 := by omega
    constructor
    · rw [divround_eq, if_neg hb, if_neg (Nat.not_le.2 hp), if_pos ⟨hsum, rfl⟩]
    · rw [divround_of_no_addition_overflow hb hp (.inr rfl)]
  case isFalse hband =>
    intro resp
    by_cases hb : b = 0
    · rw [hb, divround_by_zero, divround_by_zero]
    rcases Nat.lt_or_ge (a.toNat * d) (2 ^ 256) with hp | hp
    · have hsum : a.toNat * d + b.toNat / 2 < 2 ^ 256 :=
        Nat.not_le.1 fun hsum => hband ⟨hb, by omega, hsum⟩
      rw [divround_of_sum_fits hb hsum, divround_of_sum_fits hb hsum]
    · rw [divround_of_product_overflow hb hp, divround_of_product_overflow hb hp]

/-- Settles O44, by `divround_band` in each format. -/
theorem divideBandDependsOnRoundCarry : Obligations.DivideBandDependsOnRoundCarry := by
  intro a b s t hs ht hadd hexact
  simp only [answers_iff, hs.answer_waddiv, hs.answer_raydiv, ht.answer_waddiv, ht.answer_raydiv, hadd, hexact]
  exact ⟨divround_band a b (10 ^ 18), divround_band a b (10 ^ 27)⟩

/-! ### The bounds of a result -/

/-- A success passed the product test. -/
theorem divround_ok_product_fits {carry : RoundCarry} {a b v : Word} {d : Nat} (h : .ok v = divround carry a b d) :
    a.toNat * d < 2 ^ 256 := by
  have hb : b ≠ 0 := fun h0 => Nat.ne_of_gt (divround_ok_divisor_pos h) ((word_eq_zero_iff b).1 h0)
  refine Nat.not_le.1 fun hp => ?_
  exact Response.noConfusion (h.trans (divround_of_product_overflow hb hp carry))

/-- Rounding half up never lifts a quotient above its numerator. -/
theorem rounded_quotient_le {p b : Nat} (hb : 0 < b) : (p + b / 2) / b ≤ p := by
  have hp : p ≤ p * b := Nat.le_mul_of_pos_right p hb
  rw [← Nat.lt_succ_iff, Nat.div_lt_iff_lt_mul hb, Nat.succ_mul]
  omega

theorem divround_ok_le {carry : RoundCarry} {a b v : Word} {d : Nat} (hd : 0 < d)
    (h : .ok v = divround carry a b d) : v.toNat ≤ (2 ^ 256 - 1) / d * d := by
  have ha : a.toNat ≤ (2 ^ 256 - 1) / d :=
    (Nat.le_div_iff_mul_le hd).2 (Nat.le_pred_of_lt (divround_ok_product_fits h))
  calc v.toNat = (a.toNat * d + b.toNat / 2) / b.toNat := divround_eq_ok h
    _ ≤ a.toNat * d := rounded_quotient_le (divround_ok_divisor_pos h)
    _ ≤ (2 ^ 256 - 1) / d * d := Nat.mul_le_mul_right d ha

/-- Over 1 a product that fits is answered as it is. -/
theorem divround_over_one {a : Word} {d : Nat} (h : a.toNat * d < 2 ^ 256) (carry : RoundCarry) :
    divround carry a 1#256 d = okNat (a.toNat * d) := by
  rw [divround_of_sum_fits (by decide) h]
  exact congrArg okNat (Nat.div_one _)

/-- Settles O42: the numerals of R85 are the largest multiples of the base units that fit, reached with divisor 1. -/
theorem divideResultBounds : Obligations.DivideResultBounds := by
  intro a b v s hs
  simp only [answers_iff, hs.answer_waddiv, hs.answer_raydiv]
  refine ⟨divround_ok_le (by decide), divround_ok_le (by decide), ?_, ?_⟩
  · rw [divround_over_one (by decide)]
    rfl
  · rw [divround_over_one (by decide)]
    rfl

/-! ### Half up -/

/-- Adding the floor of half the divisor moves a remainder up to the next quotient where the two reach the divisor. -/
theorem add_floor_half_div {q r b : Nat} (hr : r < b) :
    (q * b + r + b / 2) / b = if r + b / 2 < b then q else q + 1 := by
  rw [Nat.add_assoc, Nat.mul_comm, Nat.mul_add_div (Nat.zero_lt_of_lt hr)]
  split
  case isTrue hlow => rw [Nat.div_eq_of_lt hlow, Nat.add_zero]
  case isFalse hhigh => rw [Nat.div_eq_of_lt_le (k := 1) (by omega) (by omega)]

/-- The remainder from which on the quotient goes up, for an even and for an odd divisor (R84). -/
theorem floor_half_quotient_parity {v p q r b k : Nat} (hv : v = (p + b / 2) / b) (hp : p = q * b + r) (hr : r < b) :
    (b = 2 * k → v = if r < k then q else q + 1) ∧ (b = 2 * k + 1 → v = if r ≤ k then q else q + 1) := by
  rw [hv, hp, add_floor_half_div hr]
  exact ⟨fun hb => if_congr (by omega) rfl rfl, fun hb => if_congr (by omega) rfl rfl⟩

/-- Settles O41: a success is the exact formula (O58), with the floor of half the divisor as its rounding term. -/
theorem divideRoundsHalfUp : Obligations.DivideRoundsHalfUp := by
  intro a b v q r k s hs
  obtain ⟨-, -, hwad, hray, -⟩ := successIsExactFormula a b v s hs
  exact ⟨fun h => floor_half_quotient_parity (hwad h), fun h => floor_half_quotient_parity (hray h)⟩

/-! ### Dividing after multiplying -/

/-- Two rounding steps of at most a half each: the first is worth `d / (2 * b)` of a result, the second 1/2. -/
theorem rounded_division_undoes_product {a b m r d : Nat}
    (hm : 2 * m * d ≤ 2 * (a * b) + d ∧ 2 * (a * b) < 2 * m * d + d)
    (hr : 2 * r * b ≤ 2 * (m * d) + b ∧ 2 * (m * d) < 2 * r * b + b) :
    (d ≤ b → r = a ∨ r = a + 1) ∧
      2 * b * r ≤ 2 * b * a + d + b ∧ 2 * b * a ≤ 2 * b * r + d + b := by
  obtain ⟨hm_le, hm_lt⟩ := hm
  obtain ⟨hr_le, hr_lt⟩ := hr
  have hbr : 2 * b * r = 2 * (r * b) := by ring
  have hba : 2 * b * a = 2 * (a * b) := by ring
  rw [Nat.mul_assoc] at hm_le hm_lt hr_le hr_lt
  refine ⟨fun hdb => ?_, by omega, by omega⟩
  have hle : r ≤ a + 1 := by
    refine Nat.le_of_mul_le_mul_right ?_ (show 0 < b by omega)
    rw [Nat.add_mul]
    omega
  have hge : a < r + 1 := by
    refine Nat.lt_of_mul_lt_mul_right (a := b) ?_
    rw [Nat.add_mul]
    omega
  omega

/-- Settles O46: the rounding errors are those of O59, one of the multiplier and one of the divider. -/
theorem divideUndoesMultiply : Obligations.DivideUndoesMultiply := by
  intro a b m r s hs
  obtain ⟨hwadmul, hraymul, -⟩ := roundingErrorIsAtMostHalf a b m s hs
  obtain ⟨-, -, hwaddiv, hraydiv, -⟩ := roundingErrorIsAtMostHalf m b r s hs
  exact ⟨fun hm hr => rounded_division_undoes_product (hwadmul hm) (hwaddiv hr),
    fun hm hr => rounded_division_undoes_product (hraymul hm) (hraydiv hr)⟩

end Sys2Proof.Machine
end

section
/-! PROOFS. The format converters (43_convert.md R90 to R95). -/

namespace Sys2Proof.Machine

/-! ### The result, case by case -/

/-- Settles O47: `RAY2WAD` is `downscale` at the ratio of the ROM. -/
theorem ray2wadResult : Obligations.Ray2wadResult := by
  intro x s hs
  rw [answers_iff, hs.answer_ray2wad, downscale_eq]
  rfl

/-- Settles O48: `WAD2RAY` is `upscale` at the ratio of the ROM. -/
theorem wad2rayResult : Obligations.Wad2rayResult := by
  intro x s hs
  rw [answers_iff, hs.answer_wad2ray, upscale_eq]
  rfl

theorem downscale_of_sum_fits {x : Word} {half : Nat} (h : x.toNat + half < 2 ^ 256) (q : Nat) :
    downscale x q half = okNat ((x.toNat + half) / q) :=
  checkSum_of_fits h _

theorem downscale_of_sum_overflow {x : Word} {half : Nat} (h : 2 ^ 256 ≤ x.toNat + half) (q : Nat) :
    downscale x q half = .err .additionOverflow :=
  checkSum_of_not_fits h _

theorem upscale_of_product_fits {x : Word} {q : Nat} (h : x.toNat * q < 2 ^ 256) :
    upscale x q = okNat (x.toNat * q) :=
  checkProduct_of_fits h _

theorem upscale_of_product_overflow {x : Word} {q : Nat} (h : 2 ^ 256 ≤ x.toNat * q) :
    upscale x q = .err .multiplicationOverflow :=
  checkProduct_of_not_fits h _

/-! ### The carry of the downscale -/

/-- Settles O52: the answer reads the ROM alone, and the sum test at `MAX` does not ask for `ROUND_CARRY`. -/
theorem ray2wadIgnoresRoundCarry : Obligations.Ray2wadIgnoresRoundCarry := by
  intro x s t hs ht
  simp only [answers_iff, hs.answer_ray2wad, ht.answer_ray2wad, implies_true, true_and]
  exact (downscale_of_sum_overflow (by decide) _).symm

/-! ### Half up, and exactness -/

/-- Settles O49: a success is the exact formula (O58), and the rounding term is half the ratio. -/
theorem ray2wadRoundsHalfUp : Obligations.Ray2wadRoundsHalfUp := by
  intro x v k r s hs hans hx hr
  obtain ⟨-, -, -, -, hray2wad, -⟩ := successIsExactFormula x 0 v s hs
  rw [hray2wad hans, hx]
  exact add_half_div (by decide) hr

/-- Settles O50: a success is the exact product (O58), so the ratio divides it and divides it back. -/
theorem wad2rayIsExact : Obligations.Wad2rayIsExact := by
  intro x y v w s hs hv hw
  obtain ⟨-, -, -, -, -, hx⟩ := successIsExactFormula x 0 v s hs
  obtain ⟨-, -, -, -, -, hy⟩ := successIsExactFormula y 0 w s hs
  rw [hx hv, hy hw]
  exact ⟨rfl, Nat.mul_mod_left _ _, Nat.mul_div_cancel _ (by decide),
    fun hlt => Nat.mul_lt_mul_of_pos_right hlt (by decide)⟩

/-! ### The round trip -/

/-- An upscale that fits answers a word that weighs the exact product. -/
theorem exists_ok_upscale {x : Word} {q : Nat} (h : x.toNat * q < 2 ^ 256) :
    ∃ v, .ok v = upscale x q ∧ v.toNat = x.toNat * q :=
  ⟨_, (upscale_of_product_fits h).symm, (okNat_eq_ok h).1 rfl⟩

/-- The downscale undoes the upscale where its sum fits: the rounding term is less than the ratio. -/
theorem downscale_of_toNat_eq_mul {v x : Word} {q half : Nat} (hv : v.toNat = x.toNat * q) (hhalf : half < q)
    (h : x.toNat * q + half < 2 ^ 256) : downscale v q half = .ok x := by
  rw [downscale_of_sum_fits (by rwa [hv]), hv, Nat.add_comm, Nat.add_mul_div_right _ _ (Nat.zero_lt_of_lt hhalf),
    Nat.div_eq_of_lt hhalf, Nat.zero_add]
  exact (okNat_eq_ok x.isLt).2 rfl

/-- Settles O51: at the bound of the table the product still fits while its sum with the rounding term does not. -/
theorem roundTripTable : Obligations.RoundTripTable := by
  intro x s hs
  simp only [answers_iff, hs.answer_wad2ray, hs.answer_ray2wad]
  split
  case isTrue hlow =>
    have hsum : x.toNat * 10 ^ 9 + 5 * 10 ^ 8 < 2 ^ 256 := by omega
    obtain ⟨v, hup, hv⟩ := exists_ok_upscale (Nat.lt_of_add_right_lt hsum)
    exact ⟨v, hup, hv, (downscale_of_toNat_eq_mul hv (by decide) hsum).symm⟩
  case isFalse hlow =>
    split
    case isTrue hbound =>
      obtain ⟨v, hup, hv⟩ := exists_ok_upscale (x := x) (q := 10 ^ 9) (by rw [hbound]; decide)
      rw [hbound] at hv
      exact ⟨v, hup, hv, (downscale_of_sum_overflow (by rw [hv]; decide) _).symm⟩
    case isFalse hbound =>
      have hp : 2 ^ 256 ≤ x.toNat * 10 ^ 9 := by omega
      exact (upscale_of_product_overflow hp).symm

end Sys2Proof.Machine
end

section
/-! PROOFS. Exactly when each error kind is raised, in which order the tests are made, and that an error leaves nothing
behind (60_exceptions.md R101 to R105, R108). -/

namespace Sys2Proof.Machine

/-! ### The next request -/

/-- Settles O24: a response on the port leaves the ROM and the setting of the build as they are, and no answer depends
on more. -/
theorem operationLeavesNothingBehind : Obligations.OperationLeavesNothingBehind := by
  intro i j s t resp hexec
  obtain rfl := exec_cases hexec
  rw [answers_iff, answers_iff, State.answer_congr (s.respond_rom _) (s.respond_roundCarry _)]

/-! ### The errors of each test of the detector -/

theorem err_ne_okNat (k : MathError) (n : Nat) : .err k ≠ okNat n := nofun

theorem checkProduct_eq_err_iff (k : MathError) (p : Nat) (f : Nat → Response) :
    .err k = checkProduct p f ↔
      k = .multiplicationOverflow ∧ 2 ^ 256 ≤ p ∨ p < 2 ^ 256 ∧ .err k = f p := by
  rcases Nat.lt_or_ge p (2 ^ 256) with h | h
  · rw [checkProduct_of_fits h]
    simp only [h, Nat.not_le.2 h, and_false, false_or, true_and]
  · rw [checkProduct_of_not_fits h, Response.err.injEq]
    simp only [h, Nat.not_lt.2 h, and_true, false_and, or_false]

theorem checkDivisor_eq_err_iff (k : MathError) (b : Word) (resp : Response) :
    .err k = checkDivisor b resp ↔ k = .divisionByZero ∧ b = 0 ∨ b ≠ 0 ∧ .err k = resp := by
  by_cases h : b = 0
  · rw [h, checkDivisor_zero, Response.err.injEq]
    simp only [ne_eq, not_true_eq_false, and_true, false_and, or_false]
  · rw [checkDivisor_of_ne h]
    simp only [ne_eq, h, not_false_eq_true, and_false, false_or, true_and]

/-- Before a quotient, which raises nothing itself, the rounding sum raises `AdditionOverflow` under `ADD_OVF` alone. -/
theorem checkRoundingSum_eq_err_iff (k : MathError) (carry : RoundCarry) (n d : Nat) :
    .err k = checkRoundingSum carry n (fun sum => okNat (sum / d)) ↔
      k = .additionOverflow ∧ carry = .addOvf ∧ 2 ^ 256 ≤ n := by
  rw [checkRoundingSum_eq, and_comm (a := carry = .addOvf)]
  split
  case isTrue h => rw [Response.err.injEq, and_iff_left h]
  case isFalse h => exact iff_of_false (err_ne_okNat k _) fun hk => h hk.2

/-! ### The errors of each algorithm -/

theorem mulround_eq_err_iff (k : MathError) (carry : RoundCarry) (a b : Word) (d half : Nat) :
    .err k = mulround carry a b d half ↔
      k = .multiplicationOverflow ∧ 2 ^ 256 ≤ a.toNat * b.toNat ∨
      k = .additionOverflow ∧ carry = .addOvf ∧ a.toNat * b.toNat < 2 ^ 256 ∧
        2 ^ 256 ≤ a.toNat * b.toNat + half := by
  rw [mulround, checkProduct_eq_err_iff, checkRoundingSum_eq_err_iff]
  tauto

theorem divround_eq_err_iff (k : MathError) (carry : RoundCarry) (a b : Word) (d : Nat) :
    .err k = divround carry a b d ↔
      k = .divisionByZero ∧ b = 0 ∨
      k = .multiplicationOverflow ∧ b ≠ 0 ∧ 2 ^ 256 ≤ a.toNat * d ∨
      k = .additionOverflow ∧ carry = .addOvf ∧ b ≠ 0 ∧ a.toNat * d < 2 ^ 256 ∧
        2 ^ 256 ≤ a.toNat * d + b.toNat / 2 := by
  rw [divround, checkDivisor_eq_err_iff, checkProduct_eq_err_iff, checkRoundingSum_eq_err_iff, halfDivisor]
  tauto

theorem downscale_eq_err_iff (k : MathError) (x : Word) (q half : Nat) :
    .err k = downscale x q half ↔ k = .additionOverflow ∧ 2 ^ 256 ≤ x.toNat + half := by
  rw [downscale_eq]
  split
  case isTrue h => rw [Response.err.injEq, and_iff_left h]
  case isFalse h => exact iff_of_false (err_ne_okNat k _) fun hk => h hk.2

theorem upscale_eq_err_iff (k : MathError) (x : Word) (q : Nat) :
    .err k = upscale x q ↔ k = .multiplicationOverflow ∧ 2 ^ 256 ≤ x.toNat * q := by
  rw [upscale, checkProduct_eq_err_iff, or_iff_left fun h => err_ne_okNat k _ h.2]

/-- The constant reads raise nothing, whatever the ROM holds (R104). -/
theorem constReads_raise_nothing (s : State) (k : MathError) :
    ∀ i ∈ [Instr.constWad, .constHalfWad, .constRay, .constHalfRay, .constRatio], ¬ Answers i s (.err k) := by
  simp [answers_iff, State.answer]

/-! ### Exactly when each error is raised -/

/-- Settles O53: only the product test raises the error, and the numerals of R101 are `MAX div d`. -/
theorem multiplicationOverflowExactly : Obligations.MultiplicationOverflowExactly := by
  intro s hs
  simp only [answers_iff, hs.answer_wadmul, hs.answer_raymul, hs.answer_waddiv, hs.answer_raydiv, hs.answer_wad2ray,
    mulround_eq_multiplicationOverflow_iff, divround_eq_err_iff, upscale_eq_err_iff, reduceCtorEq, false_and,
    false_or, or_false, true_and, implies_true]
  exact ⟨fun a _ => and_congr_right fun _ => by omega, fun a _ => and_congr_right fun _ => by omega,
    fun x => by omega⟩

/-- Settles O54: the divisor test alone raises the error, and only the divider makes it. -/
theorem divisionByZeroExactly : Obligations.DivisionByZeroExactly := by
  intro i s hs
  rw [answers_iff]
  cases i
  case wadmul a b => simp [hs.answer_wadmul, mulround_eq_err_iff]
  case raymul a b => simp [hs.answer_raymul, mulround_eq_err_iff]
  case waddiv a b => simp [hs.answer_waddiv, divround_eq_err_iff]
  case raydiv a b => simp [hs.answer_raydiv, divround_eq_err_iff]
  case ray2wad x => simp [hs.answer_ray2wad, downscale_eq_err_iff]
  case wad2ray x => simp [hs.answer_wad2ray, upscale_eq_err_iff]
  case constWad | constHalfWad | constRay | constHalfRay | constRatio => simp [State.answer]

/-- Settles O55: the rounding sum raises the error under `ADD_OVF` alone, the sum of `RAY2WAD` under either setting. -/
theorem additionOverflowExactly : Obligations.AdditionOverflowExactly := by
  intro s hs
  simp only [answers_iff, hs.answer_wadmul, hs.answer_raymul, hs.answer_waddiv, hs.answer_raydiv, hs.answer_ray2wad,
    hs.answer_wad2ray, mulround_eq_err_iff, divround_eq_err_iff, downscale_eq_err_iff, upscale_eq_err_iff,
    reduceCtorEq, false_and, false_or, true_and, not_false_eq_true, implies_true]
  exact ⟨fun _ => Iff.rfl, fun i hi => answers_iff.not.1 (constReads_raise_nothing s _ i hi)⟩

/-! ### Which test comes first -/

/-- Settles O57: the divisor test is made before the product test, and that before the rounding sum is formed. -/
theorem errorPriority : Obligations.ErrorPriority := by
  intro a b s hs
  simp only [answers_iff, hs.answer_wadmul, hs.answer_raymul, hs.answer_waddiv, hs.answer_raydiv]
  exact ⟨(divround_by_zero ..).symm, (divround_by_zero ..).symm,
    fun hp => ⟨(mulround_of_product_overflow hp ..).symm, (mulround_of_product_overflow hp ..).symm⟩,
    fun hb hp => (divround_of_product_overflow hb hp _).symm,
    fun hb hp => (divround_of_product_overflow hb hp _).symm⟩

/-! ### The table of R104 -/

/-- Settles O56: the `no` cells are the kinds an algorithm does not list, and each other cell is shown by operands
that meet its condition in O53, O55 or O57. -/
theorem errorsEachOperationCanRaise : Obligations.ErrorsEachOperationCanRaise := by
  intro s hs
  obtain ⟨hwadmul, hraymul, hwaddiv, hraydiv, hwad2ray⟩ := multiplicationOverflowExactly s hs
  obtain ⟨hsum, hbandWadmul, hbandRaymul, hbandWaddiv, hbandRaydiv, hnoSum, -⟩ := additionOverflowExactly s hs
  obtain ⟨hzeroWad, hzeroRay, -⟩ := errorPriority 0 0 s hs
  have hdivisor := fun i => divisionByZeroExactly i s hs
  have hnoProduct : ∀ x, ¬ Answers (.ray2wad x) s (.err .multiplicationOverflow) := by
    simp [answers_iff, hs.answer_ray2wad, downscale_eq_err_iff]
  simp only [hbandWadmul, hbandRaymul, hbandWaddiv, hbandRaydiv, exists_and_left, iff_self_and]
  exact ⟨fun a b => ⟨(hdivisor _).not.2 (by simp), (hdivisor _).not.2 (by simp)⟩,
    fun x => ⟨hnoProduct x, (hdivisor _).not.2 (by simp)⟩, fun x => ⟨(hdivisor _).not.2 (by simp), hnoSum x⟩,
    fun i hi k => constReads_raise_nothing s k i hi,
    ⟨BitVec.allOnes 256, 2, (hwadmul _ _).2 (by decide)⟩, ⟨BitVec.allOnes 256, 2, (hraymul _ _).2 (by decide)⟩,
    ⟨BitVec.allOnes 256, 1, (hwaddiv _ _).2 (by decide)⟩, ⟨BitVec.allOnes 256, 1, (hraydiv _ _).2 (by decide)⟩,
    ⟨BitVec.allOnes 256, (hwad2ray _).2 (by decide)⟩, ⟨0, 0, hzeroWad⟩, ⟨0, 0, hzeroRay⟩,
    ⟨BitVec.allOnes 256, (hsum _).2 (by decide)⟩,
    fun _ => ⟨BitVec.allOnes 256, 1, by decide⟩, fun _ => ⟨BitVec.allOnes 256, 1, by decide⟩,
    fun _ => ⟨115792089237316195423570985008687907853269984665640564039457#256, BitVec.allOnes 256, by decide⟩,
    fun _ => ⟨115792089237316195423570985008687907853269984665640#256, BitVec.allOnes 256, by decide⟩⟩

end Sys2Proof.Machine
end

section
/-! PROOFS. Reset, and when a step goes on (70_reset_and_hazards.md R120 to R125). -/

namespace Sys2Proof.Machine

/-! ### Reset -/

/-- Settles O12: reset leaves the ROM and the setting of the build as they are, and no response depends on more. -/
theorem resetHasNoArchitecturalEffect : Obligations.ResetHasNoArchitecturalEffect := by
  intro s hrst hreq
  refine ⟨s.applyReset, step_reset hrst hreq, s.applyReset_requests, s.applyReset_rspValid, s.applyReset_rom,
    s.applyReset_roundCarry, fun i resp => ?_⟩
  rw [answers_iff, answers_iff, State.answer_congr s.applyReset_rom s.applyReset_roundCarry]

/-- Settles O13: a list that is not empty has an oldest request, which the step finds owed. -/
theorem resetWhileOwedHasNoMove : Obligations.ResetWhileOwedHasNoMove := by
  intro s hrst hne
  obtain ⟨r, rest, hreq⟩ := List.exists_cons_of_ne_nil hne
  exact step_resetWhileOwed hrst hreq

/-! ### A legal request is answered -/

theorem wf_of_not_reserved {r : Request}
    (h : r.op ≠ 0x6#4 ∧ r.op ≠ 0x7#4 ∧ r.op ≠ 0xD#4 ∧ r.op ≠ 0xE#4 ∧ r.op ≠ 0xF#4) : r.wf = true := by
  have hlegal : ∀ op : BitVec 4, (op ≠ 0x6#4 ∧ op ≠ 0x7#4 ∧ op ≠ 0xD#4 ∧ op ≠ 0xE#4 ∧ op ≠ 0xF#4) →
      legalOp op = true := by decide
  exact hlegal r.op h

theorem rspValid_of_response_eq_some {s : State} {resp : Response} (h : s.response = some resp) :
    s.rspValid = true := by
  by_contra hvalid
  simp [State.response, hvalid] at h

/-- Settles O19: an opcode that is not reserved decodes, and every operation has an answer. -/
theorem legalRequestIsAnswered : Obligations.LegalRequestIsAnswered := by
  intro s r rest hrst hreq hop
  obtain ⟨i, hdec⟩ := decode_ok_of_wf (wf_of_not_reserved hop)
  obtain ⟨t, hstep, hresp, hrest, -⟩ := step_of_decode hrst hreq hdec
  exact ⟨t, s.answer i, hstep, rspValid_of_response_eq_some hresp, hresp, hrest⟩

/-! ### When a step goes on -/

/-- With `RST` not asserted, the opcode of the oldest request decides whether the step goes on. -/
theorem safeStep_request_iff {s : State} {r : Request} {rest : List Request} (hrst : s.rst = false)
    (hreq : s.requests = r :: rest) : SafeStep s ↔ r.wf = true := by
  constructor
  · rintro ⟨t, hstep⟩
    by_contra hwf
    rw [step_request hrst hreq, serve_of_reserved (Bool.eq_false_of_not_eq_true hwf)] at hstep
    cases hstep
  · intro hwf
    obtain ⟨i, hdec⟩ := decode_ok_of_wf hwf
    obtain ⟨t, hstep, -⟩ := step_of_decode hrst hreq hdec
    exact ⟨t, hstep⟩

theorem not_safeStep_of_resetWhileOwed {s : State} {r : Request} {rest : List Request} (hrst : s.rst = true)
    (hreq : s.requests = r :: rest) : ¬ SafeStep s := by
  rintro ⟨t, hstep⟩
  rw [step_resetWhileOwed hrst hreq] at hstep
  cases hstep

/-- Settles O18: an idle step and a reset always go on, `RST` with a request in the list never does, and a request
that is taken goes on exactly with a legal opcode. -/
theorem stepStopsOnlyWhereHostDisobeys : Obligations.StepStopsOnlyWhereHostDisobeys := by
  intro s
  cases hrst : s.rst <;> cases hreq : s.requests
  case false.nil => exact iff_of_true ⟨s.idle, step_idle hrst hreq⟩ (by simp)
  case false.cons r rest => simp [safeStep_request_iff hrst hreq]
  case true.nil => exact iff_of_true ⟨s.applyReset, step_reset hrst hreq⟩ (by simp)
  case true.cons r rest => exact iff_of_false (not_safeStep_of_resetWhileOwed hrst hreq) (by simp)

end Sys2Proof.Machine
end

section
/-! PROOFS. The relations of the constants, as the divider and the converters show them (40_constants.md section 3). -/

namespace Sys2Proof.Machine

/-- One over two is half the base unit, exactly: the rounding term adds half a step, which the quotient drops. -/
theorem divround_one_over_two {a b half : Word} {d : Nat} (ha : a.toNat = d) (hb : b.toNat = 2 * d)
    (hhalf : d = 2 * half.toNat) (hpos : 0 < d) (hfits : d * d + d < 2 ^ 256) (carry : RoundCarry) :
    divround carry a b d = .ok half := by
  have hne : b ≠ 0 := fun h => by rw [word_eq_zero_iff] at h; omega
  have hsum : a.toNat * d + b.toNat / 2 = d * (d + 1) := by
    rw [ha, hb, Nat.mul_div_cancel_left d (by decide), Nat.mul_succ]
  have hquot : d * (d + 1) / (2 * d) = half.toNat := by
    rw [Nat.mul_comm 2 d, Nat.mul_div_mul_left _ _ hpos]
    omega
  rw [divround_of_sum_fits hne (by rwa [hsum]), hsum, hb, hquot]
  exact (okNat_eq_ok half.isLt).2 rfl

/-- An upscale answers any word that weighs the exact product: that a word weighs it says that it fits. -/
theorem upscale_of_toNat_eq_mul {v x : Word} {q : Nat} (hv : v.toNat = x.toNat * q) : upscale x q = .ok v := by
  have hfits : x.toNat * q < 2 ^ 256 := hv ▸ v.isLt
  rw [upscale_of_product_fits hfits]
  exact (okNat_eq_ok hfits).2 hv

/-- Settles O29: each base unit is twice its half, and the RAY word is the WAD word times the ratio. -/
theorem constantRelationsShowThroughUnit : Obligations.ConstantRelationsShowThroughUnit := by
  intro s hs
  simp only [answers_iff, hs.answer_waddiv, hs.answer_raydiv, hs.answer_wad2ray, hs.answer_ray2wad]
  exact ⟨(divround_one_over_two rfl rfl romContents_wad_eq (by decide) (by decide) _).symm,
    (divround_one_over_two rfl rfl romContents_ray_eq (by decide) (by decide) _).symm,
    (upscale_of_toNat_eq_mul romContents_ray_eq_wad_mul_ratio).symm,
    (downscale_of_toNat_eq_mul romContents_ray_eq_wad_mul_ratio (by decide) (by decide)).symm⟩

end Sys2Proof.Machine
end
